-- ==== Sys2Proof/Word.lean ====
section
/-! DEFINITION. The word types of GF256U: a byte is one field element, sample or cell (40_gf_arithmetic.md
R120); commands and responses are words of 32 bits (30_encoding.md R90). -/

namespace Sys2Proof

/-- One element of GF(256), one sample, or the content of one cell. -/
abbrev Byte := BitVec 8

/-- A command word or a response word, bit 31 most significant. -/
abbrev Word32 := BitVec 32

/-- The number i of a general register gi (10_state.md R21). -/
abbrev Reg := BitVec 4

end Sys2Proof
end

