-- ==== Sys2Proof/Syntax.lean ====
section
/-! DEFINITION. The command set (30_encoding.md R94): one constructor of Instr for each of the twenty rows of
spec/opcode_table.json, its fields as R91 and R92 give them. -/

namespace Sys2Proof

/-- The nine spaces (10_state.md R45). Selectors 9..15 name no space, so they have no constructor here and the
decoder rejects them. -/
inductive Space where
  | cw | px | bm | mm | syn | lam | epos | emag | thr
  deriving DecidableEq, Repr

/-- The twenty commands. -/
inductive Instr where
  | nop
  | clrerr
  | csrrd (csr : BitVec 8)
  | csrwr (csr : BitVec 8) (imm16 : BitVec 16)
  | setptr (imm24 : BitVec 24)
  | ld (space : Space)
  | st (space : Space) (imm8 : Byte)
  | gfli (rd : Reg) (imm8 : Byte)
  | gfmv (rd ra : Reg)
  | gfrd (ra : Reg)
  | gfadd (rd ra rb : Reg)
  | gfmul (rd ra rb : Reg)
  | gfdiv (rd ra rb : Reg)
  | gfinv (rd ra : Reg)
  | gfexp (rd ra : Reg)
  | gflog (rd ra : Reg)
  | binrun
  | gsrun
  | gsmap (row col : BitVec 8)
  | rsdec
  deriving DecidableEq, Repr

end Sys2Proof
end

