-- ==== Sys2Proof/Machine/State.lean ====
section
/-! DEFINITION. The state of one GF256U (10_state.md R20), as plain data, and its value after reset (R54, R55). -/

namespace Sys2Proof.Machine

/-- The nine spaces (10_state.md R45). Each list holds the cells written since the last reset, as pairs (index,
content) with indices strictly rising; a cell that is not listed holds its unspecified content (R55, log 4). A cell
of one bit is kept as the byte 0 or 1 (log 14). -/
structure Memory where
  cw : List Host.Cell
  px : List Host.Cell
  bm : List Host.Cell
  mm : List Host.Cell
  syn : List Host.Cell
  lam : List Host.Cell
  epos : List Host.Cell
  emag : List Host.Cell
  thr : List Host.Cell
  deriving DecidableEq, Repr

/-- The image CSRs 0x10..0x13 (10_state.md R38). -/
structure ImageCsrs where
  w : BitVec 16
  h : BitVec 16
  pxfmt : BitVec 16
  cells : BitVec 16
  deriving DecidableEq, Repr

/-- The grid-sampler CSRs 0x20..0x25 (10_state.md R39); the result registers at their used widths (R42, log 12). -/
structure SamplerCsrs where
  size : BitVec 16
  npts : BitVec 16
  mapx : BitVec 12
  mapy : BitVec 12
  failc : BitVec 8
  failr : BitVec 8
  deriving DecidableEq, Repr

/-- One reference point: GS_Ui, GS_Vi, GS_Xi, GS_Yi (10_state.md R40). -/
structure RefPoint where
  u : BitVec 16
  v : BitVec 16
  x : BitVec 16
  y : BitVec 16
  deriving DecidableEq, Repr

/-- The Reed–Solomon CSRs 0x40..0x43 (10_state.md R41); the result registers at their used widths (R42, log 12). -/
structure RsCsrs where
  k : BitVec 16
  e : BitVec 16
  l : BitVec 8
  nerr : BitVec 7
  deriving DecidableEq, Repr

/-- What the host does at the port (70_reset_and_hazards.md R311; logs 1 and 9). -/
inductive HostAction where
  /-- it presents a command word, which the unit accepts and answers (R302) -/
  | command (word : Word32)
  /-- it asserts and releases `rst` between two commands (R300) -/
  | reset
  /-- it presents a command word, and asserts and releases `rst` before the response (R300) -/
  | resetInFlight (word : Word32)
  deriving DecidableEq, Repr

/-- The architectural state (10_state.md R20), and below it four fields of the model's own (INVENTORY.md). -/
structure State where
  /-- g0..g15 (R21) -/
  gpr : Vector Byte 16
  /-- PTR (R35) -/
  ptr : BitVec 24
  /-- STATUS bit 0, the error latch (R29) -/
  err : Bool
  /-- STATUS bit 1 (R29) -/
  binok : Bool
  /-- STATUS bit 2 (R29) -/
  gsok : Bool
  /-- STATUS bit 3 (R29) -/
  rsok : Bool
  /-- ERRCODE (R33) -/
  errcode : BitVec 7
  /-- ERRCMD_HI and ERRCMD_LO together (R34) -/
  errcmd : Word32
  /-- CSRs 0x10..0x13 (R38) -/
  img : ImageCsrs
  /-- CSRs 0x20..0x25 (R39) -/
  gs : SamplerCsrs
  /-- CSRs 0x30..0x3F (R40) -/
  pts : Vector RefPoint 4
  /-- CSRs 0x40..0x43 (R41) -/
  rs : RsCsrs
  /-- the nine spaces (R45) -/
  mem : Memory
  /-- MAXPIX − 1: the instance's open parameter (00_scope.md R9), which no step changes (log 3) -/
  maxPixLess1 : BitVec 22
  /-- the name of the unspecified contents of the cells that nothing has written since the last reset (log 4) -/
  fill : Nat
  /-- the host's coming actions, the next one first (log 1) -/
  portIn : List HostAction
  /-- the responses delivered, oldest first (log 2) -/
  rspOut : List Word32
  deriving DecidableEq, Repr

/-- The reasons for which a step could stop with a fault: there are none. The spec gives every word in every state
an outcome (70_reset_and_hazards.md R304); what the spec calls a fault is a next state (60_exceptions.md R263), with
its code in `FaultCode`. Safe: that no step stops is a theorem about the spec's own claim (log 8). -/
inductive Fault
  deriving DecidableEq, Repr

/-- The reasons for which an instruction could have no meaning. -/
inductive Refusal where
  /-- An arm of `exec` without a meaning; raised by no arm, since every command has its meaning (safe; log 8). What
  the spec calls a refusal is a next state (60_exceptions.md R264). -/
  | notModelled (mnemonic : String)
  deriving DecidableEq, Repr

/-- What a command answers: the next state, always (log 8). -/
abbrev Result := Host.Outcome State Fault Refusal

/-- All nine spaces with no cell written (10_state.md R55). -/
def Memory.unwritten : Memory := ⟨[], [], [], [], [], [], [], [], []⟩

/-- The machine right after reset (10_state.md R54 and R55), with MAXPIX = 65536, the value 00_scope.md R9 suggests
(DESIGN CHOICE, log 3), and an idle port (log 1). -/
def State.reset : State where
  gpr := Vector.replicate 16 0
  ptr := 0
  err := false
  binok := false
  gsok := false
  rsok := false
  errcode := 0
  errcmd := 0
  img := ⟨0, 0, 0, 4⟩
  gs := ⟨0, 4, 0, 0, 0, 0⟩
  pts := Vector.replicate 4 ⟨0, 0, 0, 0⟩
  rs := ⟨0, 0, 0, 0⟩
  mem := Memory.unwritten
  maxPixLess1 := 65535
  fill := 0
  portIn := []
  rspOut := []

end Sys2Proof.Machine
end

