-- ==== Sys2Proof/Config.lean ====
section
/-! DEFINITION. What the spec leaves open and no proof may know (93_implementation_defined.md sections 1 to 3).
The open parameter MAXPIX is a field of State, not of this file (log 3). -/

namespace Sys2Proof.Config

/-- DESIGN CHOICE (log 4; safe). The unspecified but stable content of a cell that nothing has written since the
last reset (10_state.md R55). The first argument is the state's name for these contents, its field `fill`. -/
opaque freeCell : Nat → Space → Nat → Byte

/-- DESIGN CHOICE (log 4; safe). The name of the contents after a reset that the host asserts in a state by an action.
It may depend on all of both: a reset does not clear the spaces, and a command in flight may have written some of them
(70_reset_and_hazards.md R300). -/
opaque fillAfter : Machine.State → Machine.HostAction → Nat

/-- DEDUCED (log 6; safe). What the decoder's internal divider would give for a zero divisor, which
43_rs_decoder.md R224 says it never meets. The commands GFDIV, GFINV and GFLOG never use it: they fault. -/
opaque gfDivByZero : Byte → Byte

end Sys2Proof.Config
end

