-- ==== Sys2Proof/Machine/Field.lean ====
section
/-! DEFINITION. The field GF(256) (40_gf_arithmetic.md R120 to R130): addition is `^^^`; multiplication is defined by
the modulus 0x11D, the antilog by repeated doubling, and the log, the inverse and the quotient from these. The three
functions with an undefined point answer an Option (93_implementation_defined.md section 3). -/

namespace Sys2Proof.Machine

/-- Multiplication by the element x (40_gf_arithmetic.md R122). -/
def xtime (a : Byte) : Byte :=
  let s : BitVec 9 := a.setWidth 9 <<< 1
  if s.getLsbD 8 then (s ^^^ 0x11D).setWidth 8 else s.setWidth 8

/-- One turn of the loop of R123: `if b[i] = 1: r <- r ^ p`, then `p <- xtime(p)`. -/
def gfMulStep (b : Byte) (rp : Byte × Byte) (i : Nat) : Byte × Byte :=
  (if b.getLsbD i then rp.1 ^^^ rp.2 else rp.1, xtime rp.2)

/-- The product modulo 0x11D (40_gf_arithmetic.md R123). -/
def gfMul (a b : Byte) : Byte := ((List.range 8).foldl (gfMulStep b) (0, a)).1

/-- α^n for α = 0x02 by n doublings (40_gf_arithmetic.md R124). -/
def alphaPow : Nat → Byte
  | 0 => 1
  | n + 1 => xtime (alphaPow n)

/-- `gf_exp(i) = EXP[i mod 255]` (40_gf_arithmetic.md R124); EXP[255] = EXP[0] = 0x01. -/
def gfExp (i : Nat) : Byte := alphaPow (i % 255)

/-- The least n' with `n ≤ n' < n + fuel` whose power of α is `a`, where `p` is α^n. -/
def findLog (a : Byte) : Nat → Nat → Byte → Option Nat
  | 0, _, _ => none
  | fuel + 1, n, p => if p = a then some n else findLog a fuel (n + 1) (xtime p)

/-- `gf_log(a)`, the i in 0..254 with α^i = a; no value for zero (40_gf_arithmetic.md R125). -/
def gfLog (a : Byte) : Option Nat := findLog a 255 0 1

/-- `gf_inv(a) = EXP[(255 − LOG[a]) mod 255]`; no value for zero (40_gf_arithmetic.md R127). -/
def gfInv (a : Byte) : Option Byte := (gfLog a).map (fun n => gfExp (255 - n))

/-- `gf_div(a, b)`: 0 for a = 0, else `EXP[(LOG[a] − LOG[b]) mod 255]`; no value for a zero divisor
(40_gf_arithmetic.md R128). -/
def gfDiv (a b : Byte) : Option Byte :=
  match gfLog b with
  | none => none
  | some nb =>
    match gfLog a with
    | none => some 0
    | some na => some (gfExp (na + 255 - nb))

/-- The decoder's divider: the quotient, and for a zero divisor a value nothing is known of (43_rs_decoder.md R224
says that it meets none; log 6). -/
def gfDivFree (a b : Byte) : Byte := (gfDiv a b).getD (Config.gfDivByZero a)

end Sys2Proof.Machine
end

