-- ==== Sys2Proof/WellFormed.lean ====
section
/-! DEFINITION. The one condition on a command's fields that their types do not say already: ST to a space of
one-bit cells stores 0 or 1 (30_encoding.md R94, R96 (d)). -/

namespace Sys2Proof

/-- BM and MM have cells of one bit, the others of eight (10_state.md R45). -/
def Space.oneBit : Space → Bool
  | .bm | .mm => true
  | _ => false

/-- The command has a word of its own that the unit accepts (30_encoding.md R94 with its two extra conditions). -/
def Instr.wellFormed : Instr → Bool
  | .st space imm8 => !space.oneBit || decide (imm8 ≤ 1)
  | _ => true

/-- The well-formed commands, as a proposition. -/
abbrev WellFormed (i : Instr) : Prop := i.wellFormed = true

end Sys2Proof
end

