-- ==== Sys2Proof/Decode.lean ====
section
/-! DEFINITION. Decoding and encoding of command words (30_encoding.md R90 to R97). The decoder is total: it answers
the command or the reason why the word is illegal. -/

namespace Sys2Proof

/-- Why a word is illegal: the four cases (a) to (d) of 30_encoding.md R96. -/
inductive DecodeError where
  /-- (a) the opcode is none of the twenty -/
  | unassignedOpcode
  /-- (b) a bit the format marks 0 is one -/
  | mustBeZeroBit
  /-- (c) LD or ST with a selector 9..15 -/
  | noSuchSpace
  /-- (d) ST to BM or MM with a value above 1 -/
  | notOneBit
  deriving DecidableEq, Repr

/-! ## Fields (30_encoding.md R91) -/

def fieldOpcode (w : Word32) : BitVec 8 := w.extractLsb' 24 8
def fieldRd (w : Word32) : Reg := w.extractLsb' 20 4
def fieldRa (w : Word32) : Reg := w.extractLsb' 16 4
def fieldRb (w : Word32) : Reg := w.extractLsb' 12 4
def fieldSpace (w : Word32) : BitVec 4 := w.extractLsb' 20 4
def fieldCsr (w : Word32) : BitVec 8 := w.extractLsb' 16 8
def fieldImm8 (w : Word32) : Byte := w.extractLsb' 0 8
def fieldImm16 (w : Word32) : BitVec 16 := w.extractLsb' 0 16
def fieldImm24 (w : Word32) : BitVec 24 := w.extractLsb' 0 24
def fieldRow (w : Word32) : BitVec 8 := w.extractLsb' 8 8
def fieldCol (w : Word32) : BitVec 8 := w.extractLsb' 0 8

/-- The selector of each space (10_state.md R45). -/
def Space.selector : Space → BitVec 4
  | .cw => 0
  | .px => 1
  | .bm => 2
  | .mm => 3
  | .syn => 4
  | .lam => 5
  | .epos => 6
  | .emag => 7
  | .thr => 8

/-- The space a selector names; 9..15 name none (10_state.md R45). -/
def Space.ofSelector (v : BitVec 4) : Option Space :=
  if v = 0 then some .cw
  else if v = 1 then some .px
  else if v = 2 then some .bm
  else if v = 3 then some .mm
  else if v = 4 then some .syn
  else if v = 5 then some .lam
  else if v = 6 then some .epos
  else if v = 7 then some .emag
  else if v = 8 then some .thr
  else none

/-! ## Decoding -/

/-- The word is the command `i` if the bits under `zero`, which the format marks 0, are all zero (R91, R96 (b)). -/
def checkZero (w zero : Word32) (i : Instr) : Except DecodeError Instr :=
  if w &&& zero = 0 then .ok i else .error .mustBeZeroBit

/-- LD: its selector must name a space (R96 (c)). -/
def decodeLd (w : Word32) : Except DecodeError Instr :=
  if w &&& 0x000FFFFF ≠ 0 then .error .mustBeZeroBit
  else
    match Space.ofSelector (fieldSpace w) with
    | some space => .ok (.ld space)
    | none => .error .noSuchSpace

/-- ST: its selector must name a space (R96 (c)), and a one-bit cell takes 0 or 1 only (R96 (d)). -/
def decodeSt (w : Word32) : Except DecodeError Instr :=
  if w &&& 0x000FFF00 ≠ 0 then .error .mustBeZeroBit
  else
    match Space.ofSelector (fieldSpace w) with
    | some space =>
      if WellFormed (.st space (fieldImm8 w)) then .ok (.st space (fieldImm8 w))
      else .error .notOneBit
    | none => .error .noSuchSpace

/-- The command a word stands for, by the opcode map of 30_encoding.md R94 and the formats of R91. -/
def decode (w : Word32) : Except DecodeError Instr :=
  match (fieldOpcode w).toNat with
  | 0x00 => checkZero w 0x00FFFFFF .nop
  | 0x01 => checkZero w 0x00FFFFFF .clrerr
  | 0x02 => checkZero w 0x0000FFFF (.csrrd (fieldCsr w))
  | 0x03 => .ok (.csrwr (fieldCsr w) (fieldImm16 w))
  | 0x04 => .ok (.setptr (fieldImm24 w))
  | 0x05 => decodeLd w
  | 0x06 => decodeSt w
  | 0x10 => checkZero w 0x000FFF00 (.gfli (fieldRd w) (fieldImm8 w))
  | 0x11 => checkZero w 0x0000FFFF (.gfmv (fieldRd w) (fieldRa w))
  | 0x12 => checkZero w 0x00F0FFFF (.gfrd (fieldRa w))
  | 0x18 => checkZero w 0x00000FFF (.gfadd (fieldRd w) (fieldRa w) (fieldRb w))
  | 0x19 => checkZero w 0x00000FFF (.gfmul (fieldRd w) (fieldRa w) (fieldRb w))
  | 0x1A => checkZero w 0x00000FFF (.gfdiv (fieldRd w) (fieldRa w) (fieldRb w))
  | 0x1B => checkZero w 0x0000FFFF (.gfinv (fieldRd w) (fieldRa w))
  | 0x1C => checkZero w 0x0000FFFF (.gfexp (fieldRd w) (fieldRa w))
  | 0x1D => checkZero w 0x0000FFFF (.gflog (fieldRd w) (fieldRa w))
  | 0x20 => checkZero w 0x00FFFFFF .binrun
  | 0x28 => checkZero w 0x00FFFFFF .gsrun
  | 0x29 => checkZero w 0x00FF0000 (.gsmap (fieldRow w) (fieldCol w))
  | 0x30 => checkZero w 0x00FFFFFF .rsdec
  | _ => .error .unassignedOpcode

/-! ## Encoding (30_encoding.md R91, R98) -/

/-- A field in a command word, its lowest bit at `lo`. -/
def place {n : Nat} (v : BitVec n) (lo : Nat) : Word32 := v.setWidth 32 <<< lo

/-- The word of a command, its fields where R91 places them. On a well-formed command it is the word the unit accepts
for it. -/
def encode : Instr → Word32
  | .nop => 0x00000000
  | .clrerr => 0x01000000
  | .csrrd csr => 0x02000000 ||| place csr 16
  | .csrwr csr imm16 => 0x03000000 ||| place csr 16 ||| place imm16 0
  | .setptr imm24 => 0x04000000 ||| place imm24 0
  | .ld space => 0x05000000 ||| place space.selector 20
  | .st space imm8 => 0x06000000 ||| place space.selector 20 ||| place imm8 0
  | .gfli rd imm8 => 0x10000000 ||| place rd 20 ||| place imm8 0
  | .gfmv rd ra => 0x11000000 ||| place rd 20 ||| place ra 16
  | .gfrd ra => 0x12000000 ||| place ra 16
  | .gfadd rd ra rb => 0x18000000 ||| place rd 20 ||| place ra 16 ||| place rb 12
  | .gfmul rd ra rb => 0x19000000 ||| place rd 20 ||| place ra 16 ||| place rb 12
  | .gfdiv rd ra rb => 0x1A000000 ||| place rd 20 ||| place ra 16 ||| place rb 12
  | .gfinv rd ra => 0x1B000000 ||| place rd 20 ||| place ra 16
  | .gfexp rd ra => 0x1C000000 ||| place rd 20 ||| place ra 16
  | .gflog rd ra => 0x1D000000 ||| place rd 20 ||| place ra 16
  | .binrun => 0x20000000
  | .gsrun => 0x28000000
  | .gsmap row col => 0x29000000 ||| place row 8 ||| place col 0
  | .rsdec => 0x30000000

/-- One row of the opcode map: the mnemonic, the mask and the match (30_encoding.md R94). -/
structure TableRow where
  mnemonic : String
  mask : Word32
  pattern : Word32
  deriving DecidableEq, Repr

/-- A word matches a row when `(cmd & mask) == match` (30_encoding.md R94). -/
def TableRow.fits (row : TableRow) (w : Word32) : Bool := w &&& row.mask == row.pattern

/-- The opcode map of 30_encoding.md R94, row by row. -/
def commandTable : List TableRow :=
  [⟨"NOP", 0xFFFFFFFF, 0x00000000⟩, ⟨"CLRERR", 0xFFFFFFFF, 0x01000000⟩,
   ⟨"CSRRD", 0xFF00FFFF, 0x02000000⟩, ⟨"CSRWR", 0xFF000000, 0x03000000⟩,
   ⟨"SETPTR", 0xFF000000, 0x04000000⟩, ⟨"LD", 0xFF0FFFFF, 0x05000000⟩,
   ⟨"ST", 0xFF0FFF00, 0x06000000⟩, ⟨"GFLI", 0xFF0FFF00, 0x10000000⟩,
   ⟨"GFMV", 0xFF00FFFF, 0x11000000⟩, ⟨"GFRD", 0xFFF0FFFF, 0x12000000⟩,
   ⟨"GFADD", 0xFF000FFF, 0x18000000⟩, ⟨"GFMUL", 0xFF000FFF, 0x19000000⟩,
   ⟨"GFDIV", 0xFF000FFF, 0x1A000000⟩, ⟨"GFINV", 0xFF00FFFF, 0x1B000000⟩,
   ⟨"GFEXP", 0xFF00FFFF, 0x1C000000⟩, ⟨"GFLOG", 0xFF00FFFF, 0x1D000000⟩,
   ⟨"BINRUN", 0xFFFFFFFF, 0x20000000⟩, ⟨"GSRUN", 0xFFFFFFFF, 0x28000000⟩,
   ⟨"GSMAP", 0xFFFF0000, 0x29000000⟩, ⟨"RSDEC", 0xFFFFFFFF, 0x30000000⟩]

/-- The mnemonic of a command (30_encoding.md R94). -/
def Instr.mnemonic : Instr → String
  | .nop => "NOP"
  | .clrerr => "CLRERR"
  | .csrrd _ => "CSRRD"
  | .csrwr _ _ => "CSRWR"
  | .setptr _ => "SETPTR"
  | .ld _ => "LD"
  | .st _ _ => "ST"
  | .gfli _ _ => "GFLI"
  | .gfmv _ _ => "GFMV"
  | .gfrd _ => "GFRD"
  | .gfadd _ _ _ => "GFADD"
  | .gfmul _ _ _ => "GFMUL"
  | .gfdiv _ _ _ => "GFDIV"
  | .gfinv _ _ => "GFINV"
  | .gfexp _ _ => "GFEXP"
  | .gflog _ _ => "GFLOG"
  | .binrun => "BINRUN"
  | .gsrun => "GSRUN"
  | .gsmap _ _ => "GSMAP"
  | .rsdec => "RSDEC"

/-- The command word of an instruction of `nbits` bits whose value is `w`; the bits above are zero. -/
def tableWord (nbits w : Nat) : Word32 := BitVec.ofNat 32 (w % 2 ^ nbits)

/-- The command this decoder reads from an instruction of `nbits` bits (one 32-bit word, R90 and R97). -/
def decodeTableWord (nbits w : Nat) : Option Instr := (decode (tableWord nbits w)).toOption

end Sys2Proof
end

