-- ==== Sys2Proof/Machine/Ops.lean ====
section
/-! DEFINITION. The named operations every command is written with: registers, cells of the spaces, the response,
raising a fault and returning from one, refusing, the port and reset. -/

namespace Sys2Proof.Machine

/-! ## General registers (10_state.md R21) -/

/-- `g[r]` -/
def readReg (s : State) (r : Reg) : Byte := s.gpr.get r.toFin

/-- `g[r] <- v`; no register is hardwired. -/
def writeReg (s : State) (r : Reg) (v : Byte) : State :=
  { s with gpr := s.gpr.set r.toNat v r.isLt }

/-! ## Spaces (10_state.md R45, 20_memory.md) -/

/-- The parameter MAXPIX (00_scope.md R9): 1 ≤ MAXPIX ≤ 2^22. -/
def maxPix (s : State) : Nat := s.maxPixLess1.toNat + 1

/-- The number of cells of a space (10_state.md R45). -/
def extent (s : State) : Space → Nat
  | .cw => 256
  | .px => 4 * maxPix s
  | .bm => maxPix s
  | .mm => 31329
  | .syn => 256
  | .lam => 256
  | .epos => 128
  | .emag => 128
  | .thr => 256

/-- The spaces ST may write (10_state.md R45, column "host access"). -/
def hostWritable : Space → Bool
  | .cw | .px | .bm => true
  | .mm | .syn | .lam | .epos | .emag | .thr => false

/-- What a cell of the space keeps of a value: all of it, or bit 0 (10_state.md R45, 20_memory.md R61). -/
def fitCell (sp : Space) (v : Byte) : Byte := if sp.oneBit then v &&& 1 else v

/-- The listed cells of a space. -/
def cellsOf (m : Memory) : Space → List Host.Cell
  | .cw => m.cw
  | .px => m.px
  | .bm => m.bm
  | .mm => m.mm
  | .syn => m.syn
  | .lam => m.lam
  | .epos => m.epos
  | .emag => m.emag
  | .thr => m.thr

/-- The memory with the listed cells of one space replaced. -/
def setCells (m : Memory) (sp : Space) (l : List Host.Cell) : Memory :=
  match sp with
  | .cw => { m with cw := l }
  | .px => { m with px := l }
  | .bm => { m with bm := l }
  | .mm => { m with mm := l }
  | .syn => { m with syn := l }
  | .lam => { m with lam := l }
  | .epos => { m with epos := l }
  | .emag => { m with emag := l }
  | .thr => { m with thr := l }

/-- The content of index `i` in a list of cells, if it is listed. -/
def findCell : List Host.Cell → Nat → Option Byte
  | [], _ => none
  | (j, v) :: l, i => if i = j then some v else findCell l i

/-- The list with index `i` holding `v`, its indices still strictly rising. -/
def putCell : List Host.Cell → Nat → Byte → List Host.Cell
  | [], i, v => [(i, v)]
  | (j, u) :: l, i, v =>
    if i < j then (i, v) :: (j, u) :: l
    else if i = j then (i, v) :: l
    else (j, u) :: putCell l i v

/-- `MemRead(sp, i)` (00_scope.md R13): the cell's written content, or its unspecified one (10_state.md R55; this is
the one definition of what an unlisted cell reads as, log 4). -/
def readCell (s : State) (sp : Space) (i : Nat) : Byte :=
  fitCell sp ((findCell (cellsOf s.mem sp) i).getD (Config.freeCell s.fill sp i))

/-- `MemWrite(sp, i, v)` (00_scope.md R13). -/
def writeCell (s : State) (sp : Space) (i : Nat) (v : Byte) : State :=
  { s with mem := setCells s.mem sp (putCell (cellsOf s.mem sp) i (fitCell sp v)) }

/-- The values `vs` as the cells `i`, `i + 1`, … -/
def numberFrom : Nat → List Byte → List Host.Cell
  | _, [] => []
  | i, v :: vs => (i, v) :: numberFrom (i + 1) vs

/-- The cells 0, 1, … of a space written with `vs` in order, the others as before: an engine's result (log 13). -/
def writeFirst (s : State) (sp : Space) (vs : List Byte) : State :=
  let old := cellsOf s.mem sp
  { s with
    mem := setCells s.mem sp
      (numberFrom 0 (vs.map (fitCell sp)) ++ old.filter (fun c => decide (vs.length ≤ c.1))) }

/-- The indices of a list of cells rise strictly. -/
def risingBool : List Host.Cell → Bool
  | [] => true
  | [_] => true
  | (i, _) :: (j, v) :: l => decide (i < j) && risingBool ((j, v) :: l)

/-- The canonical form of one space: indices strictly rising and below the extent, contents of the cell's width
(log 5). -/
def spaceWf (s : State) (sp : Space) : Bool :=
  risingBool (cellsOf s.mem sp) &&
    (cellsOf s.mem sp).all (fun c => decide (c.1 < extent s sp) && decide (fitCell sp c.2 = c.2))

/-- The nine spaces. -/
def allSpaces : List Space := [.cw, .px, .bm, .mm, .syn, .lam, .epos, .emag, .thr]

/-- The canonical form of the whole memory: equal contents are equal data. -/
def memoryWf (s : State) : Bool := allSpaces.all (spaceWf s)

/-- `PTR <- (PTR + 1) mod 2^24` (20_memory.md R64). -/
def advancePtr (s : State) : State := { s with ptr := s.ptr + 1 }

/-! ## Responses (30_encoding.md R93) -/

/-- The response word: fault bit, code, data. -/
def responseWord (f : Bool) (code : BitVec 7) (data : BitVec 24) : Word32 :=
  BitVec.ofBool f ++ code ++ data

/-- The unit delivers the one response of the command (70_reset_and_hazards.md R302). -/
def deliver (s : State) (r : Word32) : State := { s with rspOut := s.rspOut ++ [r] }

/-- `respond(d)` (00_scope.md R14): the command succeeds. -/
def respond (s : State) (d : BitVec 24) : Result := .next (deliver s (responseWord false 0 d))

/-! ## Faults (60_exceptions.md) -/

/-- The eight faults (60_exceptions.md R261). -/
inductive FaultCode where
  | illegalCommand
  | badCsr
  | addressOutOfRange
  | gfZero
  | badParameter
  | imageTooLarge
  | sampleOutOfBounds
  | blockUncorrectable
  deriving DecidableEq, Repr

/-- The seven-bit codes (60_exceptions.md R261). -/
def FaultCode.bits : FaultCode → BitVec 7
  | .illegalCommand => 0x01
  | .badCsr => 0x02
  | .addressOutOfRange => 0x03
  | .gfZero => 0x04
  | .badParameter => 0x05
  | .imageTooLarge => 0x10
  | .sampleOutOfBounds => 0x11
  | .blockUncorrectable => 0x12

/-- `raise Fault(code)` (60_exceptions.md R263): taking a fault. The latch records the code and the whole command
word; nothing else is saved, and the response carries the code. -/
def raiseFault (code : FaultCode) (cmd : Word32) (s : State) : Result :=
  .next (deliver { s with err := true, errcode := code.bits, errcmd := cmd } (responseWord true code.bits 0))

/-- Returning from a fault (60_exceptions.md R266): the latch and its capture registers become zero, nothing else
changes. -/
def clearLatch (s : State) : State := { s with err := false, errcode := 0, errcmd := 0 }

/-- `refuse` (60_exceptions.md R264): response 0xFF000000 and no other change. -/
def refuse (s : State) : Result := .next (deliver s (responseWord true 0x7F 0))

/-- Step 1 of the decoding order (30_encoding.md R95) for the commands that an error latch refuses. -/
def unlessLatched (s : State) (body : State → Result) : Result :=
  if s.err then refuse s else body s

/-- Step 2 of the decoding order (30_encoding.md R95): a word that is no command. While an error is latched it is
refused like any other. -/
def illegalWord (cmd : Word32) (s : State) : Result :=
  unlessLatched s (raiseFault .illegalCommand cmd)

/-! ## The port and reset (70_reset_and_hazards.md) -/

/-- The unit takes the host's next action from the port (R302), if there is one. -/
def takeAction (s : State) : Option (HostAction × State) :=
  match s.portIn with
  | [] => none
  | a :: rest => some (a, { s with portIn := rest })

/-- Reset (R300), asserted by the action `a` in the state `s`: every register, flag and CSR at its reset value, every
cell unspecified anew (10_state.md R54, R55; log 4). MAXPIX is the instance's; the host's coming actions and the
responses it has had are the host's (log 9). -/
def hardwareReset (a : HostAction) (s : State) : State :=
  { State.reset with
    maxPixLess1 := s.maxPixLess1
    fill := Config.fillAfter s a
    portIn := s.portIn
    rspOut := s.rspOut }

end Sys2Proof.Machine
end

