-- ==== Sys2Proof/Machine/Gfu.lean ====
section
/-! DEFINITION. The nine commands of the field arithmetic unit (40_gf_arithmetic.md R131 to R140). Each is refused
while an error is latched (R131 (a)); the sources are read before the destination is written (R131 (b)); the only
fault is GFZero, which leaves the destination as it was (R131 (d)). -/

namespace Sys2Proof.Machine

/-- `g[rd] <- v ; respond(0)` -/
def writeAndRespond (s : State) (rd : Reg) (v : Byte) : Result := respond (writeReg s rd v) 0

/-- `g[rd] <- v ; respond(0)`, or GFZero where the function has no value. -/
def writeOrGfZero (s : State) (cmd : Word32) (rd : Reg) : Option Byte → Result
  | some v => writeAndRespond s rd v
  | none => raiseFault .gfZero cmd s

/-- GFLI rd, imm8 (40_gf_arithmetic.md R132). -/
def execGfli (rd : Reg) (imm8 : Byte) (s : State) : Result :=
  unlessLatched s fun s => writeAndRespond s rd imm8

/-- GFMV rd, ra (40_gf_arithmetic.md R133). -/
def execGfmv (rd ra : Reg) (s : State) : Result :=
  unlessLatched s fun s => writeAndRespond s rd (readReg s ra)

/-- GFRD ra (40_gf_arithmetic.md R134). -/
def execGfrd (ra : Reg) (s : State) : Result :=
  unlessLatched s fun s => respond s ((readReg s ra).setWidth 24)

/-- GFADD rd, ra, rb (40_gf_arithmetic.md R135). -/
def execGfadd (rd ra rb : Reg) (s : State) : Result :=
  unlessLatched s fun s => writeAndRespond s rd (readReg s ra ^^^ readReg s rb)

/-- GFMUL rd, ra, rb (40_gf_arithmetic.md R136). -/
def execGfmul (rd ra rb : Reg) (s : State) : Result :=
  unlessLatched s fun s => writeAndRespond s rd (gfMul (readReg s ra) (readReg s rb))

/-- GFDIV rd, ra, rb (40_gf_arithmetic.md R137). -/
def execGfdiv (rd ra rb : Reg) (s : State) : Result :=
  unlessLatched s fun s =>
    writeOrGfZero s (encode (.gfdiv rd ra rb)) rd (gfDiv (readReg s ra) (readReg s rb))

/-- GFINV rd, ra (40_gf_arithmetic.md R138). -/
def execGfinv (rd ra : Reg) (s : State) : Result :=
  unlessLatched s fun s => writeOrGfZero s (encode (.gfinv rd ra)) rd (gfInv (readReg s ra))

/-- GFEXP rd, ra (40_gf_arithmetic.md R139): the operand is read as an integer exponent 0..255. -/
def execGfexp (rd ra : Reg) (s : State) : Result :=
  unlessLatched s fun s => writeAndRespond s rd (gfExp (readReg s ra).toNat)

/-- GFLOG rd, ra (40_gf_arithmetic.md R140). -/
def execGflog (rd ra : Reg) (s : State) : Result :=
  unlessLatched s fun s =>
    writeOrGfZero s (encode (.gflog rd ra)) rd ((gfLog (readReg s ra)).map (BitVec.ofNat 8))

end Sys2Proof.Machine
end

