-- ==== Sys2Proof/Machine/Flags.lean ====
section
/-! DEFINITION. The four flags of STATUS (10_state.md R29, R30, R32): ERR is written by `raiseFault` and `clearLatch`,
the OK flags by the engines' ends here. No other command writes one. -/

namespace Sys2Proof.Machine

/-- STATUS (10_state.md R32): bit 0 ERR, bit 1 BINOK, bit 2 GSOK, bit 3 RSOK, the rest zero. -/
def statusWord (s : State) : BitVec 16 :=
  (0 : BitVec 12) ++ BitVec.ofBool s.rsok ++ BitVec.ofBool s.gsok ++ BitVec.ofBool s.binok ++ BitVec.ofBool s.err

def setBinok (s : State) (b : Bool) : State := { s with binok := b }
def setGsok (s : State) (b : Bool) : State := { s with gsok := b }
def setRsok (s : State) (b : Bool) : State := { s with rsok := b }

/-- BINRUN ends without a fault: `BINOK <- 1 ; respond(0)` (41_binarizer.md R161). -/
def endBinrun (s : State) : Result := respond (setBinok s true) 0

/-- BINRUN faults: `BINOK <- 0 ; raise Fault(code)` (41_binarizer.md R161). -/
def failBinrun (code : FaultCode) (cmd : Word32) (s : State) : Result := raiseFault code cmd (setBinok s false)

/-- GSRUN ends without a fault: `GSOK <- 1 ; respond(0)` (42_grid_sampler.md R191). -/
def endGsrun (s : State) : Result := respond (setGsok s true) 0

/-- GSRUN faults: `GSOK <- 0 ; raise Fault(code)` (42_grid_sampler.md R191). -/
def failGsrun (code : FaultCode) (cmd : Word32) (s : State) : Result := raiseFault code cmd (setGsok s false)

/-- RSDEC ends without a fault: `RSOK <- 1 ; respond(0)` (43_rs_decoder.md R210). -/
def endRsdec (s : State) : Result := respond (setRsok s true) 0

/-- RSDEC faults: `RSOK <- 0 ; raise Fault(code)` (43_rs_decoder.md R210). -/
def failRsdec (code : FaultCode) (cmd : Word32) (s : State) : Result := raiseFault code cmd (setRsok s false)

end Sys2Proof.Machine
end

