-- ==== Sys2Proof/Machine/RsDecoder.lean ====
section
/-! DEFINITION. The Reed–Solomon block decoder and its command RSDEC (43_rs_decoder.md R210 to R225). A polynomial is
the list of its coefficients, lowest degree first (00_scope.md R15). -/

namespace Sys2Proof.Machine

/-- The coefficient of x^i; zero beyond the list. -/
def coef (p : List Byte) (i : Nat) : Byte := p.getD i 0

/-- CW[0..n−1] (43_rs_decoder.md R211). -/
def codewords (s : State) (n : Nat) : List Byte := (List.range n).map (readCell s .cw)

/-- One syndrome by Horner's rule over the codewords (43_rs_decoder.md R214). -/
def syndromeAt (cws : List Byte) (a : Byte) : Byte := cws.foldl (fun acc c => gfMul acc a ^^^ c) 0

/-- S_0 .. S_(E−1) (43_rs_decoder.md R214). -/
def syndromes (cws : List Byte) (e : Nat) : List Byte :=
  (List.range e).map (fun j => syndromeAt cws (gfExp j))

/-! ## Berlekamp–Massey (43_rs_decoder.md R216) -/

/-- The variables of the solver: C, B, L, m, and b (here `d`), the discrepancy at the last change of length. -/
structure BmState where
  c : List Byte
  b : List Byte
  l : Nat
  m : Nat
  d : Byte
  deriving DecidableEq, Repr

/-- C and B are [1, 0, …, 0] with E + 1 entries, L = 0, m = 1, b = 1. -/
def bmInit (e : Nat) : BmState :=
  ⟨1 :: List.replicate e 0, 1 :: List.replicate e 0, 0, 1, 1⟩

/-- The discrepancy d at step r. -/
def discrepancy (c syn : List Byte) (l r : Nat) : Byte :=
  (List.range l).foldl (fun d i => d ^^^ gfMul (coef c (i + 1)) (coef syn (r - (i + 1)))) (coef syn r)

/-- `for i in 0 .. E-m: C[i+m] <- C[i+m] ^ gf_mul(q, B[i])` on E + 1 entries. -/
def bmUpdate (e : Nat) (c b : List Byte) (m : Nat) (q : Byte) : List Byte :=
  (List.range (e + 1)).map
    (fun j => if m ≤ j then coef c j ^^^ gfMul q (coef b (j - m)) else coef c j)

/-- Step r: cases A, B and C. -/
def bmStep (e : Nat) (syn : List Byte) (st : BmState) (r : Nat) : BmState :=
  let d := discrepancy st.c syn st.l r
  if d = 0 then { st with m := st.m + 1 }
  else
    let c' := bmUpdate e st.c st.b st.m (gfDivFree d st.d)
    if 2 * st.l ≤ r then { c := c', b := st.c, l := r + 1 - st.l, m := 1, d := d }
    else { st with c := c', m := st.m + 1 }

/-- The solver over all E syndromes; its result is C and L. -/
def berlekampMassey (syn : List Byte) (e : Nat) : BmState :=
  (List.range e).foldl (bmStep e syn) (bmInit e)

/-! ## Chien search, evaluator and Forney's formula (43_rs_decoder.md R218 to R220) -/

/-- α^(−p), the inverse of the locator of CW index i, where p = n − 1 − i is its position (R212, R218). -/
def inverseLocator (n i : Nat) : Byte := gfExp ((255 - (n - 1 - i)) % 255)

/-- The value at x of the polynomial with coefficients p[0] .. p[deg], by Horner's rule. -/
def evalPoly (p : List Byte) (deg : Nat) (x : Byte) : Byte :=
  (List.range (deg + 1)).foldr (fun k v => gfMul v x ^^^ coef p k) 0

/-- The CW indices at whose inverse locators Λ vanishes, ascending (R218). -/
def chien (c : List Byte) (l n : Nat) : List Nat :=
  (List.range n).filter (fun i => decide (evalPoly c l (inverseLocator n i) = 0))

/-- Ω = S·Λ mod x^L (R219). -/
def evaluator (c syn : List Byte) (l : Nat) : List Byte :=
  (List.range l).map
    (fun i => (List.range (i + 1)).foldl (fun om j => om ^^^ gfMul (coef c j) (coef syn (i - j))) 0)

/-- Λ'(α^(−p)), the formal derivative: the odd k up to L (R220). -/
def forneyDen (c : List Byte) (l n i : Nat) : Byte :=
  ((List.range (l + 1)).filter (fun k => decide (k % 2 = 1))).foldl
    (fun den k => den ^^^ gfMul (coef c k) (gfExp (((255 - (n - 1 - i)) * (k - 1)) % 255))) 0

/-- Ω(α^(−p)), by Horner's rule on Om[0..L−1] (R220). -/
def forneyNum (om : List Byte) (l n i : Nat) : Byte :=
  (List.range l).foldr (fun k v => gfMul v (inverseLocator n i) ^^^ coef om k) 0

/-- The error magnitude at CW index i (R220). -/
def forney (c om : List Byte) (l n i : Nat) : Byte :=
  gfMul (gfExp (n - 1 - i)) (gfDivFree (forneyNum om l n i) (forneyDen c l n i))

/-! ## The command (43_rs_decoder.md R210, R217, R221) -/

/-- A result space of `count` cells: the values, then zeros. -/
def padZero (vs : List Byte) (count : Nat) : List Byte := (List.range count).map (coef vs)

/-- SYN, EPOS, EMAG and RS_NERR as every accepted RSDEC writes them first (R210, R214). -/
def storeSyndromes (s : State) (syn : List Byte) : State :=
  let s1 := writeFirst s .syn (padZero syn 256)
  let s2 := writeFirst s1 .epos (padZero [] 128)
  let s3 := writeFirst s2 .emag (padZero [] 128)
  { s3 with rs := { s3.rs with nerr := 0 } }

/-- LAM and RS_L (R215, R217). -/
def storeLocator (s : State) (c : List Byte) (l : Nat) : State :=
  let s1 := writeFirst s .lam (padZero c 256)
  { s1 with rs := { s1.rs with l := BitVec.ofNat 8 l } }

/-- `CW[pos] <- CW[pos] ^ mag`, one cell after the other (R221). -/
def correctCells (s : State) (fixes : List (Nat × Byte)) : State :=
  fixes.foldl (fun s f => writeCell s .cw f.1 (readCell s .cw f.1 ^^^ f.2)) s

/-- EPOS, EMAG and RS_NERR of a corrected block (R221). -/
def storeCorrections (s : State) (fixes : List (Nat × Byte)) : State :=
  let s1 := writeFirst s .epos (padZero (fixes.map (fun f => BitVec.ofNat 8 f.1)) 128)
  let s2 := writeFirst s1 .emag (padZero (fixes.map (fun f => f.2)) 128)
  { s2 with rs := { s2.rs with nerr := BitVec.ofNat 7 fixes.length } }

/-- The positions with their magnitudes, all computed before any cell is changed (R220, R221). -/
def corrections (c syn : List Byte) (l n : Nat) : List (Nat × Byte) :=
  let om := evaluator c syn l
  (chien c l n).map (fun i => (i, forney c om l n i))

/-- RSDEC after the key equation is solved: the two failure tests and the correction (R217, R218, R221). -/
def correctBlock (s : State) (syn c : List Byte) (l t n : Nat) : Result :=
  if t < l then failRsdec .blockUncorrectable (encode .rsdec) s
  else if (chien c l n).length ≠ l then failRsdec .blockUncorrectable (encode .rsdec) s
  else
    let fixes := corrections c syn l n
    endRsdec (storeCorrections (correctCells s fixes) fixes)

/-- RSDEC with K and E in range (R210). -/
def decodeBlock (s : State) (n e : Nat) : Result :=
  let syn := syndromes (codewords s n) e
  let s1 := storeSyndromes s syn
  if syn.all (fun v => decide (v = 0)) then endRsdec (storeLocator s1 [1] 0)
  else
    let bm := berlekampMassey syn e
    correctBlock (storeLocator s1 bm.c bm.l) syn bm.c bm.l (e / 2) n

/-- The one parameter check (43_rs_decoder.md R211). -/
def rsBadParameter (s : State) : Bool :=
  decide (s.rs.k.toNat < 1) || decide (s.rs.e.toNat < 1) || decide (255 < s.rs.k.toNat + s.rs.e.toNat)

/-- RSDEC (43_rs_decoder.md R210). -/
def execRsdec (s : State) : Result :=
  unlessLatched s fun s =>
    if rsBadParameter s then failRsdec .badParameter (encode .rsdec) s
    else decodeBlock s (s.rs.k.toNat + s.rs.e.toNat) s.rs.e.toNat

end Sys2Proof.Machine
end

