-- ==== Sys2Proof/Machine/Binarizer.lean ====
section
/-! DEFINITION. The binarizer and its command BINRUN (41_binarizer.md R160 to R169). -/

namespace Sys2Proof.Machine

/-- The size check of the three image commands (41_binarizer.md R162 check 1, 42_grid_sampler.md R183 check 1):
`W > 4095 or H > 4095 or W*H > MAXPIX`, the product exact. -/
def imageTooLarge (s : State) : Bool :=
  decide (4095 < s.img.w.toNat) || decide (4095 < s.img.h.toNat) ||
    decide (maxPix s < s.img.w.toNat * s.img.h.toNat)

/-- BINRUN's own parameter check (41_binarizer.md R162 check 2). -/
def binBadParameter (s : State) : Bool :=
  let w := s.img.w.toNat
  let h := s.img.h.toNat
  let k := s.img.cells.toNat
  decide (w = 0) || decide (h = 0) || decide (1 < s.img.pxfmt.toNat) || decide (k = 0) || decide (16 < k) ||
    decide (w < k) || decide (h < k)

/-- The luminance of pixel index p = y·W + x (41_binarizer.md R163): the sample itself, or the weighted sum of the
first three of its four samples. -/
def lum (s : State) (p : Nat) : Nat :=
  if s.img.pxfmt.toNat = 0 then (readCell s .px p).toNat
  else
    (77 * (readCell s .px (4 * p)).toNat + 150 * (readCell s .px (4 * p + 1)).toNat +
      29 * (readCell s .px (4 * p + 2)).toNat) >>> 8

/-- `cell(x, y) = floor(y·K / H)·K + floor(x·K / W)` (41_binarizer.md R164). -/
def cellIndex (w h k x y : Nat) : Nat := y * k / h * k + x * k / w

/-- The cell of pixel index p (10_state.md R46 (a): x = p mod W, y = p div W). -/
def cellOfPixel (s : State) (p : Nat) : Nat :=
  cellIndex s.img.w.toNat s.img.h.toNat s.img.cells.toNat (p % s.img.w.toNat) (p / s.img.w.toNat)

/-- The pixel indices 0 .. W·H − 1, row by row. -/
def pixels (s : State) : List Nat := List.range (s.img.w.toNat * s.img.h.toNat)

/-- The luminances of the pixels of cell j, in the order pass 1 meets them. -/
def cellLums (s : State) (j : Nat) : List Nat :=
  ((pixels s).filter (fun p => decide (cellOfPixel s p = j))).map (lum s)

/-- `T[j] = floor((mn[j] + mx[j]) / 2)`, with mn starting at 255 and mx at 0 (41_binarizer.md R161, R165). -/
def threshold (s : State) (j : Nat) : Nat :=
  ((cellLums s j).foldl min 255 + (cellLums s j).foldl max 0) / 2

/-- The thresholds of all K·K cells, in the order of THR (41_binarizer.md R166). -/
def thresholds (s : State) : List Nat :=
  (List.range (s.img.cells.toNat * s.img.cells.toNat)).map (threshold s)

/-- `1 if lum(x, y) < T[cell(x, y)] else 0` for a list `ts` of thresholds (41_binarizer.md R167). -/
def pixelBit (s : State) (ts : List Nat) (p : Nat) : Byte :=
  if lum s p < ts.getD (cellOfPixel s p) 0 then 1 else 0

/-- Pass 2 and the visible thresholds: BM[0..W·H−1] and THR[0..255] written (41_binarizer.md R161). -/
def binarize (s : State) : State :=
  let ts := thresholds s
  writeFirst (writeFirst s .bm ((pixels s).map (pixelBit s ts))) .thr
    ((List.range 256).map (fun j => BitVec.ofNat 8 (ts.getD j 0)))

/-- BINRUN (41_binarizer.md R161). -/
def execBinrun (s : State) : Result :=
  unlessLatched s fun s =>
    if imageTooLarge s then failBinrun .imageTooLarge (encode .binrun) s
    else if binBadParameter s then failBinrun .badParameter (encode .binrun) s
    else endBinrun (binarize s)

end Sys2Proof.Machine
end

