-- ==== Sys2Proof/Machine/Sampler.lean ====
section
/-! DEFINITION. The perspective grid sampler and its commands GSRUN and GSMAP (42_grid_sampler.md R180 to R196). All
arithmetic is on unbounded integers (R189). -/

namespace Sys2Proof.Machine

/-- A point with integer coordinates: a grid position in half modules or a pixel position in sixteenths (R181). -/
structure IntPoint where
  fst : Int
  snd : Int
  deriving DecidableEq, Repr

/-- Four points, those of A or those of B (42_grid_sampler.md R182). -/
structure Quad where
  p0 : IntPoint
  p1 : IntPoint
  p2 : IntPoint
  p3 : IntPoint
  deriving DecidableEq, Repr

/-- A matrix of integers by rows. -/
structure Mat3 where
  a : Int
  b : Int
  c : Int
  d : Int
  e : Int
  f : Int
  g : Int
  h : Int
  i : Int
  deriving DecidableEq, Repr

/-- A_i = (GS_Ui, GS_Vi) (42_grid_sampler.md R182). -/
def gridPoint (s : State) (i : Fin 4) : IntPoint :=
  ⟨((s.pts.get i).u.toNat : Int), ((s.pts.get i).v.toNat : Int)⟩

/-- B_i = (GS_Xi, GS_Yi) (42_grid_sampler.md R182). -/
def pixelPoint (s : State) (i : Fin 4) : IntPoint :=
  ⟨((s.pts.get i).x.toNat : Int), ((s.pts.get i).y.toNat : Int)⟩

/-- The fourth corner of a parallelogram: P_1 + P_2 − P_0 (42_grid_sampler.md R182). -/
def completeParallelogram (p0 p1 p2 : IntPoint) : IntPoint :=
  ⟨p1.fst + p2.fst - p0.fst, p1.snd + p2.snd - p0.snd⟩

/-- Four points from four, or from three by completing the parallelogram when GS_NPTS = 3 (R182). -/
def quadOf (s : State) (p : Fin 4 → IntPoint) : Quad :=
  ⟨p 0, p 1, p 2, if s.gs.npts.toNat = 3 then completeParallelogram (p 0) (p 1) (p 2) else p 3⟩

def gridQuad (s : State) : Quad := quadOf s (gridPoint s)
def pixelQuad (s : State) : Quad := quadOf s (pixelPoint s)

/-- `det3(P, Q, R)` (42_grid_sampler.md R184). -/
def det3 (p q r : IntPoint) : Int :=
  (q.fst - p.fst) * (r.snd - p.snd) - (r.fst - p.fst) * (q.snd - p.snd)

/-! The four integers of 42_grid_sampler.md R185. -/

def quadLam (q : Quad) : Int := det3 q.p3 q.p1 q.p2
def quadMu (q : Quad) : Int := det3 q.p0 q.p3 q.p2
def quadTau (q : Quad) : Int := det3 q.p0 q.p1 q.p3
def quadDd (q : Quad) : Int := det3 q.p0 q.p1 q.p2

/-- Some three of the four points lie on one line (42_grid_sampler.md R185). -/
def degenerate (q : Quad) : Bool :=
  decide (quadLam q = 0) || decide (quadMu q = 0) || decide (quadTau q = 0) || decide (quadDd q = 0)

/-- `basis(P)` (42_grid_sampler.md R186). -/
def basis (q : Quad) : Mat3 where
  a := quadLam q * q.p0.fst
  b := quadMu q * q.p1.fst
  c := quadTau q * q.p2.fst
  d := quadLam q * q.p0.snd
  e := quadMu q * q.p1.snd
  f := quadTau q * q.p2.snd
  g := quadLam q
  h := quadMu q
  i := quadTau q

/-- `adj(M)` (42_grid_sampler.md R186). -/
def adj (m : Mat3) : Mat3 where
  a := m.e * m.i - m.f * m.h
  b := m.c * m.h - m.b * m.i
  c := m.b * m.f - m.c * m.e
  d := m.f * m.g - m.d * m.i
  e := m.a * m.i - m.c * m.g
  f := m.c * m.d - m.a * m.f
  g := m.d * m.h - m.e * m.g
  h := m.b * m.g - m.a * m.h
  i := m.a * m.e - m.b * m.d

/-- The product of two matrices. -/
def matMul (x y : Mat3) : Mat3 where
  a := x.a * y.a + x.b * y.d + x.c * y.g
  b := x.a * y.b + x.b * y.e + x.c * y.h
  c := x.a * y.c + x.b * y.f + x.c * y.i
  d := x.d * y.a + x.e * y.d + x.f * y.g
  e := x.d * y.b + x.e * y.e + x.f * y.h
  f := x.d * y.c + x.e * y.f + x.f * y.i
  g := x.g * y.a + x.h * y.d + x.i * y.g
  h := x.g * y.b + x.h * y.e + x.i * y.h
  i := x.g * y.c + x.h * y.f + x.i * y.i

/-- The transform matrix H (42_grid_sampler.md R186), computed anew from the CSRs by each command. -/
def transform (s : State) : Mat3 := matMul (basis (pixelQuad s)) (adj (basis (gridQuad s)))

/-! The three coordinates of H·(u, v, 1)ᵀ (42_grid_sampler.md R188). -/

def imageX (m : Mat3) (u v : Int) : Int := m.a * u + m.b * v + m.c
def imageY (m : Mat3) (u v : Int) : Int := m.d * u + m.e * v + m.f
def imageW (m : Mat3) (u v : Int) : Int := m.g * u + m.h * v + m.i

/-- `map(c, r)` (42_grid_sampler.md R188): the pixel of a module's centre, or none for OUT. `Int.fdiv` is the floor
of the exact quotient (00_scope.md R12). -/
def mapModule (m : Mat3) (w h c r : Nat) : Option (Nat × Nat) :=
  let u : Int := 2 * c + 1
  let v : Int := 2 * r + 1
  let wd := imageW m u v
  if wd = 0 then none
  else
    let px := Int.fdiv (imageX m u v) (16 * wd)
    let py := Int.fdiv (imageY m u v) (16 * wd)
    if px < 0 ∨ (w : Int) ≤ px ∨ py < 0 ∨ (h : Int) ≤ py then none
    else some (px.toNat, py.toNat)

/-- The checks 1 to 4 of 42_grid_sampler.md R183, in order: the first that fails. -/
def samplerCheck (s : State) : Option FaultCode :=
  let size := s.gs.size.toNat
  let npts := s.gs.npts.toNat
  if imageTooLarge s then some .imageTooLarge
  else if s.img.w.toNat = 0 ∨ s.img.h.toNat = 0 then some .badParameter
  else if size < 1 ∨ 177 < size ∨ (npts ≠ 3 ∧ npts ≠ 4) then some .badParameter
  else if degenerate (gridQuad s) ∨ degenerate (pixelQuad s) then some .badParameter
  else none

/-- `csr.GS_FAILC <- c ; csr.GS_FAILR <- r` (42_grid_sampler.md R191, R193). -/
def setFail (s : State) (c r : Nat) : State :=
  { s with gs := { s.gs with failc := BitVec.ofNat 8 c, failr := BitVec.ofNat 8 r } }

/-- Samples for the modules of a list of MM indices in order, up to the first that maps OUT, and that one's index if
there is one (42_grid_sampler.md R191, R192). Module index j is column j mod size, row j div size (10_state.md
R46 (b)). -/
def sampleModules (s : State) (m : Mat3) : List Nat → List Byte × Option Nat
  | [] => ([], none)
  | j :: js =>
    match mapModule m s.img.w.toNat s.img.h.toNat (j % s.gs.size.toNat) (j / s.gs.size.toNat) with
    | none => ([], some j)
    | some (px, py) =>
      let rest := sampleModules s m js
      (readCell s .bm (py * s.img.w.toNat + px) :: rest.1, rest.2)

/-- The modules of the matrix, rows from the top, columns from the left (42_grid_sampler.md R191). -/
def moduleOrder (s : State) : List Nat := List.range (s.gs.size.toNat * s.gs.size.toNat)

/-- GSRUN after its checks (42_grid_sampler.md R191, R192): the samples taken are written to MM; a module that maps
OUT ends the command with SampleOutOfBounds. -/
def sampleGrid (s : State) : Result :=
  let out := sampleModules s (transform s) (moduleOrder s)
  let s' := writeFirst s .mm out.1
  match out.2 with
  | none => endGsrun s'
  | some j =>
    failGsrun .sampleOutOfBounds (encode .gsrun) (setFail s' (j % s.gs.size.toNat) (j / s.gs.size.toNat))

/-- GSRUN (42_grid_sampler.md R191). -/
def execGsrun (s : State) : Result :=
  unlessLatched s fun s =>
    match samplerCheck s with
    | some code => failGsrun code (encode .gsrun) s
    | none => sampleGrid s

/-- `csr.GS_MAPX <- px ; csr.GS_MAPY <- py` (42_grid_sampler.md R193). -/
def setMap (s : State) (px py : Nat) : State :=
  { s with gs := { s.gs with mapx := BitVec.ofNat 12 px, mapy := BitVec.ofNat 12 py } }

/-- GSMAP row, col (42_grid_sampler.md R193). -/
def execGsmap (row col : BitVec 8) (s : State) : Result :=
  unlessLatched s fun s =>
    match samplerCheck s with
    | some code => raiseFault code (encode (.gsmap row col)) s
    | none =>
      if s.gs.size.toNat ≤ row.toNat ∨ s.gs.size.toNat ≤ col.toNat then
        raiseFault .badParameter (encode (.gsmap row col)) s
      else
        match mapModule (transform s) s.img.w.toNat s.img.h.toNat col.toNat row.toNat with
        | none => raiseFault .sampleOutOfBounds (encode (.gsmap row col)) (setFail s col.toNat row.toNat)
        | some (px, py) => respond (setMap s px py) (BitVec.ofNat 12 py ++ BitVec.ofNat 12 px)

end Sys2Proof.Machine
end

