-- ==== Sys2Proof/Machine/Operands.lean ====
section
/-! DEFINITION. The operand form "CSR number" (30_encoding.md R92): the 38 control and status registers by address
(10_state.md R42), what each reads as, and what writing one does. The other operand forms are a register
(`readReg`, `writeReg`), an immediate, and a space selector (`Space.ofSelector`). -/

namespace Sys2Proof.Machine

/-- The registers of 10_state.md R42. The four coordinates of reference point i carry its number (R40). -/
inductive Csr where
  | id | status | errcode | errcmdLo | errcmdHi | ptr | maxpixLo | maxpixHi
  | imgW | imgH | pxfmt | cells
  | gsSize | gsNpts | gsMapx | gsMapy | gsFailc | gsFailr
  | gsU (i : Fin 4) | gsV (i : Fin 4) | gsX (i : Fin 4) | gsY (i : Fin 4)
  | rsK | rsE | rsL | rsNerr
  deriving DecidableEq, Repr

/-- The address of each register (10_state.md R42, and R40 for the points). -/
def Csr.addr : Csr → BitVec 8
  | .id => 0x00
  | .status => 0x01
  | .errcode => 0x02
  | .errcmdLo => 0x03
  | .errcmdHi => 0x04
  | .ptr => 0x05
  | .maxpixLo => 0x06
  | .maxpixHi => 0x07
  | .imgW => 0x10
  | .imgH => 0x11
  | .pxfmt => 0x12
  | .cells => 0x13
  | .gsSize => 0x20
  | .gsNpts => 0x21
  | .gsMapx => 0x22
  | .gsMapy => 0x23
  | .gsFailc => 0x24
  | .gsFailr => 0x25
  | .gsU i => 0x30 + 2 * BitVec.ofNat 8 i.val
  | .gsV i => 0x31 + 2 * BitVec.ofNat 8 i.val
  | .gsX i => 0x38 + 2 * BitVec.ofNat 8 i.val
  | .gsY i => 0x39 + 2 * BitVec.ofNat 8 i.val
  | .rsK => 0x40
  | .rsE => 0x41
  | .rsL => 0x42
  | .rsNerr => 0x43

/-- The coordinates of the reference points in the order of their addresses (10_state.md R40). -/
def Csr.points : List Csr :=
  [.gsU 0, .gsV 0, .gsU 1, .gsV 1, .gsU 2, .gsV 2, .gsU 3, .gsV 3,
   .gsX 0, .gsY 0, .gsX 1, .gsY 1, .gsX 2, .gsY 2, .gsX 3, .gsY 3]

/-- The registers that are no coordinate of a point. -/
def Csr.others : List Csr :=
  [.id, .status, .errcode, .errcmdLo, .errcmdHi, .ptr, .maxpixLo, .maxpixHi, .imgW, .imgH, .pxfmt, .cells,
   .gsSize, .gsNpts, .gsMapx, .gsMapy, .gsFailc, .gsFailr, .rsK, .rsE, .rsL, .rsNerr]

/-- The 38 registers. -/
def Csr.all : List Csr := List.append Csr.others Csr.points

/-- The register at an address, none if the address is unassigned (10_state.md R42). -/
def Csr.ofAddr (a : BitVec 8) : Option Csr := Csr.all.find? (fun c => c.addr == a)

/-- The read-write registers (10_state.md R42, 44_system_commands.md R244). -/
def Csr.writable : Csr → Bool
  | .imgW | .imgH | .pxfmt | .cells | .gsSize | .gsNpts | .rsK | .rsE => true
  | .gsU _ | .gsV _ | .gsX _ | .gsY _ => true
  | .id | .status | .errcode | .errcmdLo | .errcmdHi | .ptr | .maxpixLo | .maxpixHi => false
  | .gsMapx | .gsMapy | .gsFailc | .gsFailr | .rsL | .rsNerr => false

/-- MAXPIX as a number of 23 bits (10_state.md R37). -/
def maxPixBits (s : State) : BitVec 23 := BitVec.ofNat 23 (maxPix s)

/-- What CSRRD returns in its 24 data bits: the value, zero-extended (10_state.md R31 to R41). -/
def csrValue (s : State) : Csr → BitVec 24
  | .id => 0x011D
  | .status => (statusWord s).setWidth 24
  | .errcode => s.errcode.setWidth 24
  | .errcmdLo => (s.errcmd.extractLsb' 0 16).setWidth 24
  | .errcmdHi => (s.errcmd.extractLsb' 16 16).setWidth 24
  | .ptr => s.ptr
  | .maxpixLo => ((maxPixBits s).extractLsb' 0 16).setWidth 24
  | .maxpixHi => ((maxPixBits s).extractLsb' 16 7).setWidth 24
  | .imgW => s.img.w.setWidth 24
  | .imgH => s.img.h.setWidth 24
  | .pxfmt => s.img.pxfmt.setWidth 24
  | .cells => s.img.cells.setWidth 24
  | .gsSize => s.gs.size.setWidth 24
  | .gsNpts => s.gs.npts.setWidth 24
  | .gsMapx => s.gs.mapx.setWidth 24
  | .gsMapy => s.gs.mapy.setWidth 24
  | .gsFailc => s.gs.failc.setWidth 24
  | .gsFailr => s.gs.failr.setWidth 24
  | .gsU i => (s.pts.get i).u.setWidth 24
  | .gsV i => (s.pts.get i).v.setWidth 24
  | .gsX i => (s.pts.get i).x.setWidth 24
  | .gsY i => (s.pts.get i).y.setWidth 24
  | .rsK => s.rs.k.setWidth 24
  | .rsE => s.rs.e.setWidth 24
  | .rsL => s.rs.l.setWidth 24
  | .rsNerr => s.rs.nerr.setWidth 24

/-- Reference point i replaced. -/
def setPoint (s : State) (i : Fin 4) (p : RefPoint) : State := { s with pts := s.pts.set i.val p i.isLt }

/-- A read-write register takes all sixteen bits as given (10_state.md R36). No command writes a read-only one this
way: CSRWR faults before (44_system_commands.md R244). -/
def writeCsr (s : State) (c : Csr) (v : BitVec 16) : State :=
  match c with
  | .imgW => { s with img := { s.img with w := v } }
  | .imgH => { s with img := { s.img with h := v } }
  | .pxfmt => { s with img := { s.img with pxfmt := v } }
  | .cells => { s with img := { s.img with cells := v } }
  | .gsSize => { s with gs := { s.gs with size := v } }
  | .gsNpts => { s with gs := { s.gs with npts := v } }
  | .gsU i => setPoint s i { s.pts.get i with u := v }
  | .gsV i => setPoint s i { s.pts.get i with v := v }
  | .gsX i => setPoint s i { s.pts.get i with x := v }
  | .gsY i => setPoint s i { s.pts.get i with y := v }
  | .rsK => { s with rs := { s.rs with k := v } }
  | .rsE => { s with rs := { s.rs with e := v } }
  | .id | .status | .errcode | .errcmdLo | .errcmdHi | .ptr | .maxpixLo | .maxpixHi => s
  | .gsMapx | .gsMapy | .gsFailc | .gsFailr | .rsL | .rsNerr => s

end Sys2Proof.Machine
end

