-- ==== Sys2Proof/Machine/System.lean ====
section
/-! DEFINITION. The seven system commands (44_system_commands.md R240 to R247). -/

namespace Sys2Proof.Machine

/-- NOP (44_system_commands.md R241). -/
def execNop (s : State) : Result := unlessLatched s fun s => respond s 0

/-- CLRERR (44_system_commands.md R242): it executes whether or not an error is latched. -/
def execClrerr (s : State) : Result := respond (clearLatch s) 0

/-- CSRRD csr (44_system_commands.md R243). A read of an assigned register executes even while an error is latched;
of an unassigned address it raises BadCsr, or is refused while an error is latched (30_encoding.md R95 step 1). -/
def execCsrrd (csr : BitVec 8) (s : State) : Result :=
  match Csr.ofAddr csr with
  | some c => respond s (csrValue s c)
  | none => unlessLatched s (raiseFault .badCsr (encode (.csrrd csr)))

/-- CSRWR csr, imm16 (44_system_commands.md R244). -/
def execCsrwr (csr : BitVec 8) (imm16 : BitVec 16) (s : State) : Result :=
  unlessLatched s fun s =>
    match Csr.ofAddr csr with
    | some c =>
      if c.writable then respond (writeCsr s c imm16) 0
      else raiseFault .badCsr (encode (.csrwr csr imm16)) s
    | none => raiseFault .badCsr (encode (.csrwr csr imm16)) s

/-- SETPTR imm24 (44_system_commands.md R245): the value is not checked. -/
def execSetptr (imm24 : BitVec 24) (s : State) : Result :=
  unlessLatched s fun s => respond { s with ptr := imm24 } 0

/-- LD space (44_system_commands.md R246). -/
def execLd (space : Space) (s : State) : Result :=
  unlessLatched s fun s =>
    if extent s space ≤ s.ptr.toNat then raiseFault .addressOutOfRange (encode (.ld space)) s
    else respond (advancePtr s) ((readCell s space s.ptr.toNat).setWidth 24)

/-- ST space, imm8 (44_system_commands.md R247). The checks in their order: the one-bit value (an ill-formed command,
whose word is illegal; log 11), the read-only space, the extent. -/
def execSt (space : Space) (imm8 : Byte) (s : State) : Result :=
  unlessLatched s fun s =>
    if ¬ WellFormed (.st space imm8) then raiseFault .illegalCommand (encode (.st space imm8)) s
    else if hostWritable space = false then raiseFault .addressOutOfRange (encode (.st space imm8)) s
    else if extent s space ≤ s.ptr.toNat then raiseFault .addressOutOfRange (encode (.st space imm8)) s
    else respond (advancePtr (writeCell s space s.ptr.toNat imm8)) 0

end Sys2Proof.Machine
end

