-- ==== Sys2Proof/Machine/Dispatch.lean ====
section
/-! DEFINITION. One arm per command (30_encoding.md R94), each a call of its meaning. -/

namespace Sys2Proof.Machine

def exec (i : Instr) (s : State) : Host.Outcome State Fault Refusal :=
  match i with
  | .nop => Sys2Proof.Machine.execNop s
  | .clrerr => Sys2Proof.Machine.execClrerr s
  | .csrrd csr => Sys2Proof.Machine.execCsrrd csr s
  | .csrwr csr imm16 => Sys2Proof.Machine.execCsrwr csr imm16 s
  | .setptr imm24 => Sys2Proof.Machine.execSetptr imm24 s
  | .ld space => Sys2Proof.Machine.execLd space s
  | .st space imm8 => Sys2Proof.Machine.execSt space imm8 s
  | .gfli rd imm8 => Sys2Proof.Machine.execGfli rd imm8 s
  | .gfmv rd ra => Sys2Proof.Machine.execGfmv rd ra s
  | .gfrd ra => Sys2Proof.Machine.execGfrd ra s
  | .gfadd rd ra rb => Sys2Proof.Machine.execGfadd rd ra rb s
  | .gfmul rd ra rb => Sys2Proof.Machine.execGfmul rd ra rb s
  | .gfdiv rd ra rb => Sys2Proof.Machine.execGfdiv rd ra rb s
  | .gfinv rd ra => Sys2Proof.Machine.execGfinv rd ra s
  | .gfexp rd ra => Sys2Proof.Machine.execGfexp rd ra s
  | .gflog rd ra => Sys2Proof.Machine.execGflog rd ra s
  | .binrun => Sys2Proof.Machine.execBinrun s
  | .gsrun => Sys2Proof.Machine.execGsrun s
  | .gsmap row col => Sys2Proof.Machine.execGsmap row col s
  | .rsdec => Sys2Proof.Machine.execRsdec s

end Sys2Proof.Machine
end

