-- ==== Sys2Proof/Machine/Step.lean ====
section
/-! DEFINITION. One step: the unit takes the host's next action (70_reset_and_hazards.md R302, R310) and carries it
out; with nothing on the port it idles. -/

namespace Sys2Proof.Machine

/-- One command word from acceptance to response (30_encoding.md R95), a reset, or an idle unit. A command in flight
when `rst` is asserted is abandoned: what it wrote is overwritten by the reset, or is unspecified, and it gets no
response (70_reset_and_hazards.md R300; log 9). -/
def step (s : State) : Host.Outcome State Fault Refusal :=
  match takeAction s with
  | none => .next s
  | some (.command w, s') =>
    match decode w with
    | .ok i => exec i s'
    | .error _ => illegalWord w s'
  | some (.reset, s') => .next (hardwareReset .reset s')
  | some (.resetInFlight w, s') => .next (hardwareReset (.resetInFlight w) s')

/-- The host presents the word next: it stands first at the port, where the next step takes it (log 1). -/
def State.withFetchWord (s : State) (nbits w : Nat) : State :=
  { s with portIn := .command (tableWord nbits w) :: s.portIn }

end Sys2Proof.Machine
end

