-- ==== Sys2Proof/Safety.lean ====
section
/-! DEFINITION. The terms the claims use: the invariant of the machine, the frames of its commands, and what the
engines compute, said apart from how Machine/ computes it. -/

namespace Sys2Proof.Machine

/-! ## The invariant -/

/-- ERRCODE and ERRCMD are zero while no error is latched, and ERRCODE is one of the eight codes while one is
(10_state.md R33, R34; 60_exceptions.md R261). -/
def LatchWf (s : State) : Prop :=
  (s.err = false → s.errcode = 0 ∧ s.errcmd = 0) ∧ (s.err = true → ∃ code : FaultCode, s.errcode = code.bits)

/-- The result registers hold what the engines can leave in them: a pixel of an image of at most 4095 by 4095, a
module of a matrix of at most 177 by 177, a register length of at most 254 and no more corrections than that
(10_state.md R38, R39, R41). -/
def ResultsWf (s : State) : Prop :=
  s.gs.mapx.toNat < 4095 ∧ s.gs.mapy.toNat < 4095 ∧ s.gs.failc.toNat < 177 ∧ s.gs.failr.toNat < 177 ∧
    s.rs.nerr.toNat ≤ s.rs.l.toNat ∧ s.rs.l.toNat ≤ 254

/-- What every step keeps. -/
structure Inv (s : State) : Prop where
  canonical : memoryWf s = true
  latch : LatchWf s
  results : ResultsWf s

/-! ## Frames -/

/-- Every cell of every space reads as before. -/
def SameCells (s t : State) : Prop := ∀ sp i, readCell t sp i = readCell s sp i

/-- Every cell outside the space `sp` reads as before. -/
def SameCellsBut (sp : Space) (s t : State) : Prop := ∀ sp', sp' ≠ sp → ∀ i, readCell t sp' i = readCell s sp' i

/-- The command wrote `v` to register `rd`, responded 0, and changed nothing else. -/
def WritesReg (s t : State) (rd : Reg) (v : Byte) : Prop :=
  t = { s with gpr := t.gpr, rspOut := s.rspOut ++ [0] } ∧ SameCells s t ∧
    ∀ r, readReg t r = if r = rd then v else readReg s r

/-- The state after a fault with this code and command word and no other effect (60_exceptions.md R261, R263). -/
def faulted (s : State) (code : BitVec 7) (cmd : Word32) : State :=
  { s with
    err := true
    errcode := code
    errcmd := cmd
    rspOut := s.rspOut ++ [BitVec.ofNat 32 (0x80000000 + code.toNat * 0x1000000)] }

/-- The state after a refusal (60_exceptions.md R264). -/
def refusedState (s : State) : State := { s with rspOut := s.rspOut ++ [0xFF000000] }

/-- The addresses of the assigned CSRs (10_state.md R42). -/
def AssignedCsr (a : BitVec 8) : Prop :=
  a ≤ 0x07 ∨ (0x10 ≤ a ∧ a ≤ 0x13) ∨ (0x20 ≤ a ∧ a ≤ 0x25) ∨ (0x30 ≤ a ∧ a ≤ 0x3F) ∨ (0x40 ≤ a ∧ a ≤ 0x43)

/-- The addresses of the read-write CSRs (44_system_commands.md R244). -/
def ReadWriteCsr (a : BitVec 8) : Prop :=
  (0x10 ≤ a ∧ a ≤ 0x13) ∨ a = 0x20 ∨ a = 0x21 ∨ (0x30 ≤ a ∧ a ≤ 0x3F) ∨ a = 0x40 ∨ a = 0x41

/-! ## Who writes what (10_state.md R22, R29, R45) -/

/-- The commands that may write register `r` (10_state.md R22). -/
def WritesGpr (i : Instr) (r : Reg) : Prop :=
  (∃ v, i = .gfli r v) ∨ (∃ a, i = .gfmv r a ∨ i = .gfinv r a ∨ i = .gfexp r a ∨ i = .gflog r a) ∨
    ∃ a b, i = .gfadd r a b ∨ i = .gfmul r a b ∨ i = .gfdiv r a b

/-- The commands in the column "written by" of 10_state.md R45. -/
def WritesSpace (i : Instr) : Space → Prop
  | .cw => (∃ v, i = .st .cw v) ∨ i = .rsdec
  | .px => ∃ v, i = .st .px v
  | .bm => (∃ v, i = .st .bm v) ∨ i = .binrun
  | .mm => i = .gsrun
  | .syn => i = .rsdec
  | .lam => i = .rsdec
  | .epos => i = .rsdec
  | .emag => i = .rsdec
  | .thr => i = .binrun

/-- The codes a command may raise (60_exceptions.md R261, column "raised by", and R265). -/
def MayRaise (i : Instr) (code : FaultCode) : Prop :=
  match i with
  | .csrrd _ => code = .badCsr
  | .csrwr _ _ => code = .badCsr
  | .ld _ => code = .addressOutOfRange
  | .st sp v => code = .addressOutOfRange ∨ (code = .illegalCommand ∧ ¬ WellFormed (.st sp v))
  | .gfdiv _ _ _ => code = .gfZero
  | .gfinv _ _ => code = .gfZero
  | .gflog _ _ => code = .gfZero
  | .binrun => code = .imageTooLarge ∨ code = .badParameter
  | .gsrun => code = .imageTooLarge ∨ code = .badParameter ∨ code = .sampleOutOfBounds
  | .gsmap _ _ => code = .imageTooLarge ∨ code = .badParameter ∨ code = .sampleOutOfBounds
  | .rsdec => code = .badParameter ∨ code = .blockUncorrectable
  | .nop | .clrerr | .setptr _ | .gfli _ _ | .gfmv _ _ | .gfrd _ | .gfadd _ _ _ | .gfmul _ _ _ | .gfexp _ _ => False

/-- The commands that may write the latch and its capture registers: CLRERR, and those that may raise a fault
(10_state.md R33, R34). -/
def WritesLatch (i : Instr) : Prop := i = .clrerr ∨ ∃ code, MayRaise i code

/-- The commands that may write a CSR: CSRWR for the read-write ones (10_state.md R36), the engine of each result
register (R39, R41), SETPTR, LD and ST for PTR (R35), those that write the latch for ERRCODE and ERRCMD (R33, R34), and
these and the engines with an OK flag for STATUS (R29). -/
def WritesCsr (i : Instr) : Csr → Prop
  | .ptr => (∃ v, i = .setptr v) ∨ (∃ sp, i = .ld sp) ∨ ∃ sp v, i = .st sp v
  | .gsMapx | .gsMapy => ∃ r c, i = .gsmap r c
  | .gsFailc | .gsFailr => i = .gsrun ∨ ∃ r c, i = .gsmap r c
  | .rsL | .rsNerr => i = .rsdec
  | .id | .maxpixLo | .maxpixHi => False
  | .errcode | .errcmdLo | .errcmdHi => WritesLatch i
  | .status => WritesLatch i ∨ i = .binrun ∨ i = .gsrun ∨ i = .rsdec
  | c => ∃ v, i = .csrwr c.addr v

/-! ## The field -/

/-- α^n as n multiplications by α = 0x02 (40_gf_arithmetic.md R124). -/
def powAlpha (n : Nat) : Byte := (gfMul 0x02)^[n] 0x01

/-! ## The binarizer -/

/-- The luminance of pixel (x, y) (41_binarizer.md R163). -/
def luminance (s : State) (x y : Nat) : Nat :=
  let p := y * s.img.w.toNat + x
  if s.img.pxfmt = 0 then (readCell s .px p).toNat
  else
    (77 * (readCell s .px (4 * p)).toNat + 150 * (readCell s .px (4 * p + 1)).toNat +
      29 * (readCell s .px (4 * p + 2)).toNat) / 256

/-- Pixel (x, y) is a pixel of cell j (41_binarizer.md R164). -/
def InCell (s : State) (j x y : Nat) : Prop :=
  x < s.img.w.toNat ∧ y < s.img.h.toNat ∧
    y * s.img.cells.toNat / s.img.h.toNat * s.img.cells.toNat + x * s.img.cells.toNat / s.img.w.toNat = j

/-- `T` is floor((min + max) / 2) over the luminances of cell j (41_binarizer.md R165). -/
def IsThreshold (s : State) (j T : Nat) : Prop :=
  ∃ mn mx,
    IsLeast {l | ∃ x y, InCell s j x y ∧ l = luminance s x y} mn ∧
      IsGreatest {l | ∃ x y, InCell s j x y ∧ l = luminance s x y} mx ∧ T = (mn + mx) / 2

/-- W > 4095, H > 4095 or W·H > MAXPIX (41_binarizer.md R162 check 1). -/
def TooLarge (s : State) : Prop :=
  4095 < s.img.w.toNat ∨ 4095 < s.img.h.toNat ∨ maxPix s < s.img.w.toNat * s.img.h.toNat

/-- The parameters with which BINRUN faults after that check (41_binarizer.md R162 check 2). -/
def BinrunBad (s : State) : Prop :=
  s.img.w = 0 ∨ s.img.h = 0 ∨ 1 < s.img.pxfmt.toNat ∨ s.img.cells = 0 ∨ 16 < s.img.cells.toNat ∨
    s.img.w.toNat < s.img.cells.toNat ∨ s.img.h.toNat < s.img.cells.toNat

/-! ## The grid sampler -/

/-- Some three of the four points are collinear (42_grid_sampler.md R185). -/
def ThreeCollinear (q : Quad) : Prop :=
  det3 q.p3 q.p1 q.p2 = 0 ∨ det3 q.p0 q.p3 q.p2 = 0 ∨ det3 q.p0 q.p1 q.p3 = 0 ∨ det3 q.p0 q.p1 q.p2 = 0

/-- The parameters with which the sampler faults after the size check (42_grid_sampler.md R183 checks 2 to 4). -/
def SamplerBad (s : State) : Prop :=
  s.img.w = 0 ∨ s.img.h = 0 ∨ s.gs.size.toNat < 1 ∨ 177 < s.gs.size.toNat ∨
    (s.gs.npts.toNat ≠ 3 ∧ s.gs.npts.toNat ≠ 4) ∨ ThreeCollinear (gridQuad s) ∨ ThreeCollinear (pixelQuad s)

/-- The centre of module (c, r) maps into pixel (px, py) of the image: the exact rational quotients floor to it
(42_grid_sampler.md R188). -/
def MapsTo (s : State) (c r px py : Nat) : Prop :=
  let wd := imageW (transform s) (2 * c + 1) (2 * r + 1)
  wd ≠ 0 ∧ ⌊(imageX (transform s) (2 * c + 1) (2 * r + 1) : ℚ) / (16 * (wd : ℚ))⌋ = (px : Int) ∧
    ⌊(imageY (transform s) (2 * c + 1) (2 * r + 1) : ℚ) / (16 * (wd : ℚ))⌋ = (py : Int) ∧
    px < s.img.w.toNat ∧ py < s.img.h.toNat

/-- The centre of module (c, r) maps outside the bitmap or to infinity (42_grid_sampler.md R188). -/
def MapsOut (s : State) (c r : Nat) : Prop := ¬ ∃ px py, MapsTo s c r px py

/-! ## The Reed–Solomon decoder -/

/-- K and E are in range (43_rs_decoder.md R211). -/
def RsReady (s : State) : Prop :=
  1 ≤ s.rs.k.toNat ∧ 1 ≤ s.rs.e.toNat ∧ s.rs.k.toNat + s.rs.e.toNat ≤ 255

/-- n = K + E (43_rs_decoder.md R211). -/
def blockLength (s : State) : Nat := s.rs.k.toNat + s.rs.e.toNat

/-- The sum in the field of the bytes of a list. -/
def gfSum (l : List Byte) : Byte := l.foldr (· ^^^ ·) 0

/-- S_j = R(α^j), where R has coefficient `cw i` at x^(n−1−i) (43_rs_decoder.md R212, R214). -/
def syndromeSum (cw : Nat → Byte) (n j : Nat) : Byte :=
  gfSum ((List.range n).map (fun i => gfMul (cw i) (powAlpha (j * (n - 1 - i)))))

/-- `cw 0 .. cw (n−1)` is a codeword of the code with E check symbols: it vanishes at α^0 .. α^(E−1)
(43_rs_decoder.md R213). -/
def IsCodeword (cw : Nat → Byte) (n e : Nat) : Prop := ∀ j, j < e → syndromeSum cw n j = 0

/-- What the key-equation solver answers for the block in CW (43_rs_decoder.md R216). -/
def solved (s : State) : BmState :=
  berlekampMassey ((List.range s.rs.e.toNat).map (syndromeSum (readCell s .cw) (blockLength s))) s.rs.e.toNat

/-- The CW indices at whose inverse locators the locator polynomial vanishes (43_rs_decoder.md R218). -/
def rootPositions (s : State) : List Nat := chien (solved s).c (solved s).l (blockLength s)

/-- The magnitude Forney's formula gives at CW index i (43_rs_decoder.md R220). -/
def magnitude (s : State) (i : Nat) : Byte :=
  forney (solved s).c
    (evaluator (solved s).c ((List.range s.rs.e.toNat).map (syndromeSum (readCell s .cw) (blockLength s))) (solved s).l)
    (solved s).l (blockLength s) i

end Sys2Proof.Machine
end

