-- ==== Sys2Proof/Certificates/Slice0/Obligations.lean ====
section
/-! DEFINITION. The statements for the provers. Each docstring names the rules of spec/ it formalises. -/

open Sys2Proof Sys2Proof.Machine

/-! ## Encoding -/

/-- Words written out from the encodings of 30_encoding.md R91 and R94, one of each family at least. -/
def Obligations.WrittenWordsDecode : Prop :=
  decode 0x00000000 = .ok .nop ∧
  decode 0x01000000 = .ok .clrerr ∧
  decode 0x03100100 = .ok (.csrwr 0x10 256) ∧
  decode 0x0401FFFF = .ok (.setptr 0x01FFFF) ∧
  decode 0x061000C8 = .ok (.st .px 200) ∧
  decode 0x10100053 = .ok (.gfli 1 0x53) ∧
  decode 0x1A312000 = .ok (.gfdiv 3 1 2) ∧
  decode 0x20000000 = .ok .binrun ∧
  decode 0x29000201 = .ok (.gsmap 2 1) ∧
  decode 0x30000000 = .ok .rsdec

/-- Decoding the word of a well-formed command gives the command back, whatever its operands (30_encoding.md R91,
R92, R96). -/
def Obligations.DecodeOfEncodeIsTheCommand : Prop :=
  ∀ i : Instr, WellFormed i → decode (encode i) = .ok i

/-- Every legal word is the word of exactly one command, and that command is well-formed: no bit of a word is lost
(30_encoding.md R92, R96). -/
def Obligations.LegalWordIsTheWordOfItsCommand : Prop :=
  ∀ (w : Word32) (i : Instr), decode w = .ok i → WellFormed i ∧ encode i = w

/-- The opcode map (30_encoding.md R94): a word is the command with mnemonic `m` exactly when it fits the row of `m`
and meets the two extra conditions of LD and ST; no word fits two rows. -/
def Obligations.WordMatchesItsTableRow : Prop :=
  (∀ (w : Word32) (m : String),
    (∃ i, decode w = .ok i ∧ i.mnemonic = m) ↔
      ∃ row ∈ commandTable, w &&& row.mask = row.pattern ∧ row.mnemonic = m ∧
        (m = "LD" ∨ m = "ST" → (fieldSpace w).toNat ≤ 8) ∧
        (m = "ST" → (fieldSpace w = 2 ∨ fieldSpace w = 3) → (fieldImm8 w).toNat ≤ 1)) ∧
  ∀ w : Word32, ∀ r ∈ commandTable, ∀ r' ∈ commandTable,
    w &&& r.mask = r.pattern → w &&& r'.mask = r'.pattern → r = r'

/-- The four kinds of illegal word (30_encoding.md R96), and what an illegal word does while no error is latched:
it raises IllegalCommand and changes nothing but the error latch. -/
def Obligations.IllegalWordTakesTheFault : Prop :=
  (∀ w : Word32, decode w = .error .unassignedOpcode ↔
    (0x07 ≤ fieldOpcode w ∧ fieldOpcode w ≤ 0x0F) ∨ (0x13 ≤ fieldOpcode w ∧ fieldOpcode w ≤ 0x17) ∨
    fieldOpcode w = 0x1E ∨ fieldOpcode w = 0x1F ∨ (0x21 ≤ fieldOpcode w ∧ fieldOpcode w ≤ 0x27) ∨
    (0x2A ≤ fieldOpcode w ∧ fieldOpcode w ≤ 0x2F) ∨ 0x31 ≤ fieldOpcode w) ∧
  (∀ w : Word32, decode w = .error .mustBeZeroBit ↔
    ∃ row ∈ commandTable, w &&& 0xFF000000 = row.pattern &&& 0xFF000000 ∧ w &&& row.mask ≠ row.pattern) ∧
  (∀ w : Word32, decode w = .error .noSuchSpace ↔
    (w &&& 0xFF0FFFFF = 0x05000000 ∨ w &&& 0xFF0FFF00 = 0x06000000) ∧ 9 ≤ (fieldSpace w).toNat) ∧
  (∀ w : Word32, decode w = .error .notOneBit ↔
    w &&& 0xFF0FFF00 = 0x06000000 ∧ (fieldSpace w = 2 ∨ fieldSpace w = 3) ∧ 2 ≤ (fieldImm8 w).toNat) ∧
  ∀ (s : State) (w : Word32) (rest : List HostAction) (e : DecodeError),
    s.portIn = .command w :: rest → decode w = .error e → s.err = false →
      step s = .next (faulted { s with portIn := rest } 0x01 w)

/-! ## Steps -/

/-- A step runs the command that the word at the port decodes to, on the state from whose port the word is taken
(30_encoding.md R95); `withFetchWord` puts a word there. -/
def Obligations.StepRunsTheDecodedCommand : Prop :=
  (∀ (s : State) (w : Word32) (rest : List HostAction) (i : Instr),
    s.portIn = .command w :: rest → decode w = .ok i → step s = exec i { s with portIn := rest }) ∧
  ∀ (s : State) (w : Word32) (i : Instr),
    decode w = .ok i → step (s.withFetchWord 32 w.toNat) = exec i s

/-- While an error is latched every word but CLRERR and a CSRRD of an assigned register is refused, and these two
execute (60_exceptions.md R264, 30_encoding.md R95 step 1). -/
def Obligations.LatchRefusesEveryOtherWord : Prop :=
  ∀ (s : State) (w : Word32) (rest : List HostAction), s.portIn = .command w :: rest → s.err = true →
    (w ≠ 0x01000000 → ¬ (w &&& 0xFF00FFFF = 0x02000000 ∧ AssignedCsr (fieldCsr w)) →
      step s = .next (refusedState { s with portIn := rest })) ∧
    (w = 0x01000000 →
      step s = .next { s with
        portIn := rest, err := false, errcode := 0, errcmd := 0, rspOut := s.rspOut ++ [0] }) ∧
    (w &&& 0xFF00FFFF = 0x02000000 → AssignedCsr (fieldCsr w) →
      ∃ c : Csr, c.addr = fieldCsr w ∧
        step s = .next { s with portIn := rest, rspOut := s.rspOut ++ [(csrValue s c).setWidth 32] })

/-- Every state steps to a state; an idle unit changes nothing; a command word is taken from the port and answered
with one response; a command abandoned by `rst` gets none (70_reset_and_hazards.md R302, R304, R310, R300). -/
def Obligations.EveryStepAnswersOnce : Prop :=
  ∀ s : State, ∃ t, step s = .next t ∧
    (s.portIn = [] → t = s) ∧
    (∀ w rest, s.portIn = .command w :: rest → t.portIn = rest ∧ ∃ r, t.rspOut = s.rspOut ++ [r]) ∧
    (∀ a rest, s.portIn = a :: rest → (∀ w, a ≠ .command w) → t.portIn = rest ∧ t.rspOut = s.rspOut)

/-- The response word (30_encoding.md R93): bit 31 is 0 exactly when the command executed and succeeded, and then the
code is 0; otherwise the word is the refusal, or the fault's code with no data. -/
def Obligations.ResponseTellsTheOutcome : Prop :=
  ∀ (s t : State) (w : Word32) (rest : List HostAction),
    s.portIn = .command w :: rest → step s = .next t →
      ∃ r, t.rspOut = s.rspOut ++ [r] ∧
        (r.msb = false → r.toNat < 0x1000000 ∧ (s.err = false → t.err = false)) ∧
        (r.msb = true →
          (s.err = true ∧ r = 0xFF000000 ∧ t = refusedState { s with portIn := rest }) ∨
          (s.err = false ∧ t.err = true ∧ t.errcmd = w ∧
            r = BitVec.ofNat 32 (0x80000000 + t.errcode.toNat * 0x1000000)))

/-- The invariant is kept by every step from every state that has it: the memory stays canonical and inside its
extents, the error latch stays coherent, the result registers stay in range (10_state.md R33, R34, R45;
20_memory.md R66). -/
def Obligations.StepKeepsTheInvariant : Prop :=
  ∀ s t : State, Inv s → step s = .next t → Inv t

/-- The invariant holds right after reset. -/
def Obligations.ResetHasTheInvariant : Prop := Inv State.reset

/-- The constants (10_state.md R31, R37, 00_scope.md R9): ID and the two halves of MAXPIX read as the rules say,
MAXPIX is in its range, and no step changes it. That MAXPIX is held in the state is the model's choice (log 3). -/
def Obligations.ConstantsReadTheSame : Prop :=
  ∀ s : State, csrValue s .id = 0x011D ∧
    (csrValue s .maxpixLo).toNat = maxPix s % 65536 ∧ (csrValue s .maxpixHi).toNat = maxPix s / 65536 ∧
    1 ≤ maxPix s ∧ maxPix s ≤ 4194304 ∧ ∀ t, step s = .next t → maxPix t = maxPix s

/-- The values after reset (10_state.md R23, R54): the general registers, PTR, the flags, the capture registers, the
read-write CSRs and the result CSRs. -/
def Obligations.ResetValuesOfTheRegisters : Prop :=
  (∀ r, readReg State.reset r = 0) ∧ State.reset.ptr = 0 ∧
  State.reset.err = false ∧ State.reset.binok = false ∧ State.reset.gsok = false ∧ State.reset.rsok = false ∧
  State.reset.errcode = 0 ∧ State.reset.errcmd = 0 ∧
  (∀ c : Csr, c.writable = true → csrValue State.reset c = if c = .cells ∨ c = .gsNpts then 4 else 0) ∧
  ∀ c ∈ [Csr.status, .errcode, .errcmdLo, .errcmdHi, .ptr, .gsMapx, .gsMapy, .gsFailc, .gsFailr, .rsL, .rsNerr],
    csrValue State.reset c = 0

/-- After a reset, with or without a command in flight, the registers are as after power-up and every cell of every
space holds a content of its width that no rule says (70_reset_and_hazards.md R300, 10_state.md R55). That the
contents are a free value of the state and the action is the model's choice (log 4), and so is what stays of the port
(log 9). -/
def Obligations.HostResetRestoresTheRegisters : Prop :=
  ∀ (s : State) (a : HostAction) (rest : List HostAction), s.portIn = a :: rest → (∀ w, a ≠ .command w) →
    ∃ t, step s = .next t ∧
      t = { State.reset with
        mem := t.mem, maxPixLess1 := s.maxPixLess1, fill := t.fill, portIn := rest, rspOut := s.rspOut } ∧
      t.fill = Config.fillAfter { s with portIn := rest } a ∧
      ∀ sp i, readCell t sp i = fitCell sp (Config.freeCell t.fill sp i)

/-! ## The field -/

/-- `gf_mul` is the product of the two polynomials over GF(2) reduced modulo 0x11D (40_gf_arithmetic.md R120, R122,
R123): the difference of the two is a multiple of the modulus. -/
def Obligations.ProductIsReducedPolynomialProduct : Prop :=
  let poly : Byte → Polynomial (ZMod 2) :=
    fun a => ∑ i ∈ Finset.range 8, if a.getLsbD i then Polynomial.X ^ i else 0
  let modulus : Polynomial (ZMod 2) :=
    Polynomial.X ^ 8 + Polynomial.X ^ 4 + Polynomial.X ^ 3 + Polynomial.X ^ 2 + 1
  ∀ a b : Byte, modulus ∣ poly a * poly b - poly (gfMul a b)

/-- The laws of the field arithmetic (40_gf_arithmetic.md R129), with its three undefined points. -/
def Obligations.FieldLawsHold : Prop :=
  (∀ a b c : Byte,
    a ^^^ b = b ^^^ a ∧ gfMul a b = gfMul b a ∧ gfMul (gfMul a b) c = gfMul a (gfMul b c) ∧
    gfMul a (b ^^^ c) = gfMul a b ^^^ gfMul a c ∧ gfMul a 0x01 = a ∧ gfMul a 0x00 = 0x00 ∧
    (gfMul a b = 0x00 → a = 0x00 ∨ b = 0x00) ∧
    (a ≠ 0x00 → (∃ x, gfInv a = some x ∧ gfMul a x = 0x01 ∧ gfInv x = some a) ∧
      (∃ i, gfLog a = some i ∧ gfExp i = a) ∧ (gfMul a)^[255] 0x01 = 0x01) ∧
    (b ≠ 0x00 → ∃ q, gfDiv a b = some q ∧ gfMul q b = a)) ∧
  (∀ i, i < 255 → gfLog (gfExp i) = some i) ∧
  gfLog 0x00 = none ∧ gfInv 0x00 = none ∧ ∀ a : Byte, gfDiv a 0x00 = none

/-- α = 0x02 generates every non-zero byte exactly once, and `gf_log` is the exponent, with no value for zero
(40_gf_arithmetic.md R122, R125). -/
def Obligations.LogIsTheExponent : Prop :=
  powAlpha 255 = 0x01 ∧ gfLog 0x00 = none ∧
  ∀ a : Byte, a ≠ 0x00 → ∃ i, i < 255 ∧ gfLog a = some i ∧ powAlpha i = a ∧ ∀ j, j < 255 → powAlpha j = a → j = i

/-- Multiplication, inversion and division through the tables (40_gf_arithmetic.md R126, R127, R128), and what
characterizes the inverse and the quotient without them. -/
def Obligations.TablesGiveProductInverseAndQuotient : Prop :=
  (∀ (a b : Byte) (i j : Nat), gfLog a = some i → gfLog b = some j →
    gfMul a b = gfExp ((i + j) % 255) ∧ gfInv a = some (gfExp ((255 - i) % 255)) ∧
    gfDiv a b = some (gfExp ((i + 255 - j) % 255))) ∧
  (∀ a b : Byte, a = 0x00 ∨ b = 0x00 → gfMul a b = 0x00) ∧
  (∀ a x : Byte, gfInv a = some x ↔ gfMul a x = 0x01) ∧
  (∀ a b x : Byte, gfInv b = some x → gfDiv a b = some (gfMul a x)) ∧
  (∀ a b q : Byte, gfDiv a b = some q ↔ b ≠ 0x00 ∧ gfMul q b = a) ∧
  gfInv 0x01 = some 0x01 ∧ gfInv 0x00 = none ∧ ∀ a : Byte, gfDiv a 0x00 = none

/-! ## The field commands -/

/-- GFLI and GFMV (40_gf_arithmetic.md R132, R133): their words, and that they load the register and change nothing
else. -/
def Obligations.GfliAndGfmvLoadARegister : Prop :=
  (∀ (rd : Reg) (imm8 : Byte),
    (encode (.gfli rd imm8)).toNat = 0x10000000 + rd.toNat * 0x100000 + imm8.toNat ∧
    ∀ s : State, s.err = false → ∃ t, exec (.gfli rd imm8) s = .next t ∧ WritesReg s t rd imm8) ∧
  ∀ rd ra : Reg,
    (encode (.gfmv rd ra)).toNat = 0x11000000 + rd.toNat * 0x100000 + ra.toNat * 0x10000 ∧
    ∀ s : State, s.err = false → ∃ t, exec (.gfmv rd ra) s = .next t ∧ WritesReg s t rd (readReg s ra)

/-- GFRD (40_gf_arithmetic.md R134): it responds with the register and writes nothing. -/
def Obligations.GfrdReturnsARegister : Prop :=
  ∀ ra : Reg, (encode (.gfrd ra)).toNat = 0x12000000 + ra.toNat * 0x10000 ∧
    ∀ s : State, s.err = false →
      exec (.gfrd ra) s = .next { s with rspOut := s.rspOut ++ [(readReg s ra).setWidth 32] }

/-- GFADD (40_gf_arithmetic.md R135, R121): it writes the XOR of its operands to the destination, responds 0 and changes
nothing else. -/
def Obligations.GfaddAddsInTheField : Prop :=
  ∀ rd ra rb : Reg,
    (encode (.gfadd rd ra rb)).toNat =
      0x18000000 + rd.toNat * 0x100000 + ra.toNat * 0x10000 + rb.toNat * 0x1000 ∧
    ∀ s : State, s.err = false →
      ∃ t, exec (.gfadd rd ra rb) s = .next t ∧ WritesReg s t rd (readReg s ra ^^^ readReg s rb)

/-- GFMUL (40_gf_arithmetic.md R136), with its corner cases: a zero operand gives zero, two non-zero ones never do,
and 0x01 is the identity. -/
def Obligations.GfmulMultipliesInTheField : Prop :=
  ∀ rd ra rb : Reg,
    (encode (.gfmul rd ra rb)).toNat =
      0x19000000 + rd.toNat * 0x100000 + ra.toNat * 0x10000 + rb.toNat * 0x1000 ∧
    ∀ s : State, s.err = false →
      ∃ t, exec (.gfmul rd ra rb) s = .next t ∧ WritesReg s t rd (gfMul (readReg s ra) (readReg s rb)) ∧
        (readReg t rd = 0x00 ↔ readReg s ra = 0x00 ∨ readReg s rb = 0x00) ∧
        (readReg s rb = 0x01 → readReg t rd = readReg s ra) ∧ (readReg s ra = 0x01 → readReg t rd = readReg s rb)

/-- GFDIV (40_gf_arithmetic.md R137): for a non-zero divisor the result is the byte whose product with the divisor is
the dividend; for a zero divisor, whatever the dividend, GFZero and nothing else. -/
def Obligations.GfdivDividesOrFaults : Prop :=
  ∀ rd ra rb : Reg,
    (encode (.gfdiv rd ra rb)).toNat =
      0x1A000000 + rd.toNat * 0x100000 + ra.toNat * 0x10000 + rb.toNat * 0x1000 ∧
    ∀ s : State, s.err = false →
      (readReg s rb ≠ 0x00 →
        ∃ t q, exec (.gfdiv rd ra rb) s = .next t ∧ WritesReg s t rd q ∧ gfMul q (readReg s rb) = readReg s ra) ∧
      (readReg s rb = 0x00 → exec (.gfdiv rd ra rb) s = .next (faulted s 0x04 (encode (.gfdiv rd ra rb))))

/-- GFINV (40_gf_arithmetic.md R138): for a non-zero operand the result is the byte whose product with it is 0x01; for
zero, GFZero and nothing else. -/
def Obligations.GfinvInvertsOrFaults : Prop :=
  ∀ rd ra : Reg,
    (encode (.gfinv rd ra)).toNat = 0x1B000000 + rd.toNat * 0x100000 + ra.toNat * 0x10000 ∧
    ∀ s : State, s.err = false →
      (readReg s ra ≠ 0x00 →
        ∃ t q, exec (.gfinv rd ra) s = .next t ∧ WritesReg s t rd q ∧ gfMul (readReg s ra) q = 0x01) ∧
      (readReg s ra = 0x00 → exec (.gfinv rd ra) s = .next (faulted s 0x04 (encode (.gfinv rd ra))))

/-- GFEXP (40_gf_arithmetic.md R139): the result is α to the power the register holds as an integer, never zero. -/
def Obligations.GfexpRaisesAlpha : Prop :=
  ∀ rd ra : Reg,
    (encode (.gfexp rd ra)).toNat = 0x1C000000 + rd.toNat * 0x100000 + ra.toNat * 0x10000 ∧
    ∀ s : State, s.err = false →
      ∃ t, exec (.gfexp rd ra) s = .next t ∧ WritesReg s t rd (powAlpha (readReg s ra).toNat) ∧
        readReg t rd ≠ 0x00

/-- GFLOG (40_gf_arithmetic.md R140): for a non-zero operand the result is the exponent 0..254 of α that gives it; for
zero, GFZero and nothing else. -/
def Obligations.GflogFindsTheExponentOrFaults : Prop :=
  ∀ rd ra : Reg,
    (encode (.gflog rd ra)).toNat = 0x1D000000 + rd.toNat * 0x100000 + ra.toNat * 0x10000 ∧
    ∀ s : State, s.err = false →
      (readReg s ra ≠ 0x00 →
        ∃ t q, exec (.gflog rd ra) s = .next t ∧ WritesReg s t rd q ∧ q.toNat < 255 ∧
          powAlpha q.toNat = readReg s ra) ∧
      (readReg s ra = 0x00 → exec (.gflog rd ra) s = .next (faulted s 0x04 (encode (.gflog rd ra))))

/-! ## System commands -/

/-- NOP (44_system_commands.md R241): it responds 0 and changes nothing; while an error is latched it is refused. -/
def Obligations.NopOnlyResponds : Prop :=
  encode .nop = 0x00000000 ∧
  ∀ s : State, (s.err = false → exec .nop s = .next { s with rspOut := s.rspOut ++ [0] }) ∧
    (s.err = true → exec .nop s = .next (refusedState s))

/-- CLRERR (44_system_commands.md R242, 60_exceptions.md R266): it executes whatever ERR is, clears the latch and its
capture registers, and changes nothing else. -/
def Obligations.ClrerrClearsTheLatch : Prop :=
  encode .clrerr = 0x01000000 ∧
  ∀ s : State, exec .clrerr s =
    .next { s with err := false, errcode := 0, errcmd := 0, rspOut := s.rspOut ++ [0] }

/-- CSRRD (44_system_commands.md R243): an assigned register is read, even while an error is latched; an unassigned
address raises BadCsr, or is refused while an error is latched. -/
def Obligations.CsrrdReadsAssignedRegisters : Prop :=
  (∀ a : BitVec 8, (encode (.csrrd a)).toNat = 0x02000000 + a.toNat * 0x10000) ∧
  (∀ (c : Csr) (s : State),
    exec (.csrrd c.addr) s = .next { s with rspOut := s.rspOut ++ [(csrValue s c).setWidth 32] }) ∧
  ∀ (a : BitVec 8) (s : State), (∀ c : Csr, c.addr ≠ a) →
    (s.err = false → exec (.csrrd a) s = .next (faulted s 0x02 (encode (.csrrd a)))) ∧
    (s.err = true → exec (.csrrd a) s = .next (refusedState s))

/-- The address map (10_state.md R42, R40): the address of each of the 38 registers, that no other address is assigned,
that no two registers share one, and which are read-write. -/
def Obligations.CsrAddressMap : Prop :=
  (Csr.addr .id = 0x00 ∧ Csr.addr .status = 0x01 ∧ Csr.addr .errcode = 0x02 ∧ Csr.addr .errcmdLo = 0x03 ∧
    Csr.addr .errcmdHi = 0x04 ∧ Csr.addr .ptr = 0x05 ∧ Csr.addr .maxpixLo = 0x06 ∧ Csr.addr .maxpixHi = 0x07 ∧
    Csr.addr .imgW = 0x10 ∧ Csr.addr .imgH = 0x11 ∧ Csr.addr .pxfmt = 0x12 ∧ Csr.addr .cells = 0x13 ∧
    Csr.addr .gsSize = 0x20 ∧ Csr.addr .gsNpts = 0x21 ∧ Csr.addr .gsMapx = 0x22 ∧ Csr.addr .gsMapy = 0x23 ∧
    Csr.addr .gsFailc = 0x24 ∧ Csr.addr .gsFailr = 0x25 ∧
    Csr.addr .rsK = 0x40 ∧ Csr.addr .rsE = 0x41 ∧ Csr.addr .rsL = 0x42 ∧ Csr.addr .rsNerr = 0x43) ∧
  (∀ i : Fin 4,
    (Csr.addr (.gsU i)).toNat = 0x30 + 2 * i.val ∧ (Csr.addr (.gsV i)).toNat = 0x31 + 2 * i.val ∧
    (Csr.addr (.gsX i)).toNat = 0x38 + 2 * i.val ∧ (Csr.addr (.gsY i)).toNat = 0x39 + 2 * i.val) ∧
  (∀ a : BitVec 8, (∃ c : Csr, c.addr = a) ↔ AssignedCsr a) ∧
  (∀ c : Csr, c.writable = true ↔ ReadWriteCsr c.addr) ∧
  (∀ c c' : Csr, c.addr = c'.addr → c = c') ∧ Csr.all.length = 38

/-- What CSRRD reads (10_state.md R32 to R35, R38 to R41): STATUS from the four flags, ERRCODE and the halves of ERRCMD
from the latch, PTR whole, and every other register but the constants from its own field of the state, the field the
engines' statements speak of, zero-extended. -/
def Obligations.StatusAndCaptureRegistersRead : Prop :=
  ∀ s : State,
    (csrValue s .status).toNat = s.err.toNat + 2 * s.binok.toNat + 4 * s.gsok.toNat + 8 * s.rsok.toNat ∧
    (csrValue s .errcode).toNat = s.errcode.toNat ∧
    (csrValue s .errcmdLo).toNat = s.errcmd.toNat % 65536 ∧
    (csrValue s .errcmdHi).toNat = s.errcmd.toNat / 65536 ∧ csrValue s .ptr = s.ptr ∧
    (csrValue s .imgW).toNat = s.img.w.toNat ∧ (csrValue s .imgH).toNat = s.img.h.toNat ∧
    (csrValue s .pxfmt).toNat = s.img.pxfmt.toNat ∧ (csrValue s .cells).toNat = s.img.cells.toNat ∧
    (csrValue s .gsSize).toNat = s.gs.size.toNat ∧ (csrValue s .gsNpts).toNat = s.gs.npts.toNat ∧
    (csrValue s .gsMapx).toNat = s.gs.mapx.toNat ∧ (csrValue s .gsMapy).toNat = s.gs.mapy.toNat ∧
    (csrValue s .gsFailc).toNat = s.gs.failc.toNat ∧ (csrValue s .gsFailr).toNat = s.gs.failr.toNat ∧
    (∀ i : Fin 4,
      (csrValue s (.gsU i)).toNat = (s.pts.get i).u.toNat ∧ (csrValue s (.gsV i)).toNat = (s.pts.get i).v.toNat ∧
      (csrValue s (.gsX i)).toNat = (s.pts.get i).x.toNat ∧ (csrValue s (.gsY i)).toNat = (s.pts.get i).y.toNat) ∧
    (csrValue s .rsK).toNat = s.rs.k.toNat ∧ (csrValue s .rsE).toNat = s.rs.e.toNat ∧
    (csrValue s .rsL).toNat = s.rs.l.toNat ∧ (csrValue s .rsNerr).toNat = s.rs.nerr.toNat

/-- CSRWR (44_system_commands.md R244, 10_state.md R36): a read-write register takes the sixteen bits as given and
nothing else changes; any other address raises BadCsr. -/
def Obligations.CsrwrStoresTheValue : Prop :=
  (∀ (a : BitVec 8) (v : BitVec 16),
    (encode (.csrwr a v)).toNat = 0x03000000 + a.toNat * 0x10000 + v.toNat) ∧
  (∀ (c : Csr) (v : BitVec 16) (s : State), s.err = false → c.writable = true →
    ∃ t, exec (.csrwr c.addr v) s = .next t ∧ csrValue t c = v.setWidth 24 ∧
      (∀ c', c' ≠ c → csrValue t c' = csrValue s c') ∧
      t = { s with img := t.img, gs := t.gs, pts := t.pts, rs := t.rs, rspOut := s.rspOut ++ [0] } ∧
      SameCells s t) ∧
  ∀ (a : BitVec 8) (v : BitVec 16) (s : State), s.err = false → ¬ ReadWriteCsr a →
    exec (.csrwr a v) s = .next (faulted s 0x02 (encode (.csrwr a v)))

/-- SETPTR (44_system_commands.md R245): it sets PTR to its operand, whatever that is, responds 0 and changes nothing
else. -/
def Obligations.SetptrSetsThePointer : Prop :=
  ∀ v : BitVec 24, (encode (.setptr v)).toNat = 0x04000000 + v.toNat ∧
    ∀ s : State, s.err = false → exec (.setptr v) s = .next { s with ptr := v, rspOut := s.rspOut ++ [0] }

/-- The spaces (10_state.md R45): the selector of each, that 9 to 15 name none, the extents, the host access, and the
cell widths: a cell of BM or MM keeps bit 0 of what is written to it and never reads as more, a cell of the seven other
spaces keeps all eight bits. -/
def Obligations.SpacesOfTheMap : Prop :=
  allSpaces = [.cw, .px, .bm, .mm, .syn, .lam, .epos, .emag, .thr] ∧
  allSpaces.map Space.selector = [0, 1, 2, 3, 4, 5, 6, 7, 8] ∧
  (∀ v : BitVec 4, Space.ofSelector v = none ↔ 9 ≤ v.toNat) ∧
  (∀ sp : Space, Space.ofSelector sp.selector = some sp) ∧
  (∀ s : State, allSpaces.map (extent s) = [256, 4 * maxPix s, maxPix s, 31329, 256, 256, 128, 128, 256]) ∧
  (∀ sp : Space, hostWritable sp = true ↔ sp = .cw ∨ sp = .px ∨ sp = .bm) ∧
  (∀ (s : State) (sp : Space) (i : Nat) (v : Byte), ¬ (sp = .bm ∨ sp = .mm) → readCell (writeCell s sp i v) sp i = v) ∧
  ∀ (s : State) (sp : Space) (i : Nat), sp = .bm ∨ sp = .mm →
    (readCell s sp i).toNat ≤ 1 ∧ ∀ v : Byte, (readCell (writeCell s sp i v) sp i).toNat = v.toNat % 2

/-- LD (44_system_commands.md R246): below the extent it returns the cell at PTR and moves PTR by one modulo 2^24;
otherwise AddressOutOfRange and PTR stays. -/
def Obligations.LdReturnsTheCellAtPtr : Prop :=
  ∀ sp : Space, (encode (.ld sp)).toNat = 0x05000000 + sp.selector.toNat * 0x100000 ∧
    ∀ s : State, s.err = false →
      (s.ptr.toNat < extent s sp →
        ∃ t, exec (.ld sp) s = .next t ∧
          t = { s with ptr := t.ptr, rspOut := s.rspOut ++ [(readCell s sp s.ptr.toNat).setWidth 32] } ∧
          t.ptr.toNat = (s.ptr.toNat + 1) % 2 ^ 24 ∧ SameCells s t) ∧
      (extent s sp ≤ s.ptr.toNat → exec (.ld sp) s = .next (faulted s 0x03 (encode (.ld sp))))

/-- ST (44_system_commands.md R247): its checks in their order (a value above 1 for a one-bit cell, a read-only space,
the extent), and otherwise the cell at PTR written, PTR moved, and nothing else changed. -/
def Obligations.StWritesTheCellAtPtr : Prop :=
  ∀ (sp : Space) (v : Byte),
    (encode (.st sp v)).toNat = 0x06000000 + sp.selector.toNat * 0x100000 + v.toNat ∧
    ∀ s : State, s.err = false →
      (if (sp = .bm ∨ sp = .mm) ∧ 2 ≤ v.toNat then
        exec (.st sp v) s = .next (faulted s 0x01 (encode (.st sp v)))
      else if ¬ (sp = .cw ∨ sp = .px ∨ sp = .bm) ∨ extent s sp ≤ s.ptr.toNat then
        exec (.st sp v) s = .next (faulted s 0x03 (encode (.st sp v)))
      else
        ∃ t, exec (.st sp v) s = .next t ∧
          t = { s with mem := t.mem, ptr := t.ptr, rspOut := s.rspOut ++ [0] } ∧
          t.ptr.toNat = (s.ptr.toNat + 1) % 2 ^ 24 ∧ readCell t sp s.ptr.toNat = v ∧
          (∀ i, i ≠ s.ptr.toNat → readCell t sp i = readCell s sp i) ∧ SameCellsBut sp s t)

/-! ## The binarizer -/

/-- The checks of BINRUN in their order (41_binarizer.md R162): each faults with its code, clears BINOK and changes
nothing else. -/
def Obligations.BinrunChecksItsParameters : Prop :=
  encode .binrun = 0x20000000 ∧
  ∀ s : State, s.err = false →
    (TooLarge s → exec .binrun s = .next (faulted { s with binok := false } 0x10 (encode .binrun))) ∧
    (¬ TooLarge s → BinrunBad s → exec .binrun s = .next (faulted { s with binok := false } 0x05 (encode .binrun)))

/-- BINRUN with good parameters (41_binarizer.md R163 to R167): THR holds floor((min + max) / 2) of each cell and
zeros, BM holds 1 exactly for the pixels darker than their cell's threshold, every other cell of every space and
every register but BINOK is unchanged. -/
def Obligations.BinrunBinarizesTheImage : Prop :=
  ∀ s : State, s.err = false → ¬ TooLarge s → ¬ BinrunBad s →
    ∃ (t : State) (T : Nat → Nat), exec .binrun s = .next t ∧
      t = { s with mem := t.mem, binok := true, rspOut := s.rspOut ++ [0] } ∧
      (∀ j, j < s.img.cells.toNat * s.img.cells.toNat → IsThreshold s j (T j)) ∧
      (∀ x y j, InCell s j x y →
        readCell t .bm (y * s.img.w.toNat + x) = if luminance s x y < T j then 1 else 0) ∧
      (∀ i, s.img.w.toNat * s.img.h.toNat ≤ i → readCell t .bm i = readCell s .bm i) ∧
      (∀ j, j < 256 → (readCell t .thr j).toNat = if j < s.img.cells.toNat * s.img.cells.toNat then T j else 0) ∧
      (∀ j, 256 ≤ j → readCell t .thr j = readCell s .thr j) ∧
      ∀ sp, sp ≠ .bm → sp ≠ .thr → ∀ i, readCell t sp i = readCell s sp i

/-- The partition (41_binarizer.md R164): every pixel belongs to a cell below K·K, every cell has a pixel, a cell
column is a run of W/K pixel columns where K divides W, and otherwise the widths differ by at most one. -/
def Obligations.PartitionCoversTheImage : Prop :=
  ∀ w h k : Nat, 1 ≤ k → k ≤ w → k ≤ h →
    (∀ x y, x < w → y < h → cellIndex w h k x y < k * k) ∧
    (∀ j, j < k * k → ∃ x y, x < w ∧ y < h ∧ cellIndex w h k x y = j) ∧
    (k ∣ w → ∀ x cx, x * k / w = cx ↔ cx * (w / k) ≤ x ∧ x < (cx + 1) * (w / k)) ∧
    ∀ cx, cx < k →
      w / k ≤ ((List.range w).filter (fun x => decide (x * k / w = cx))).length ∧
        ((List.range w).filter (fun x => decide (x * k / w = cx))).length ≤ w / k + 1

/-! ## The grid sampler -/

/-- The checks of GSRUN and GSMAP in their order (42_grid_sampler.md R183, R185): GSRUN clears GSOK and faults, GSMAP
faults, and nothing else changes. -/
def Obligations.SamplerChecksItsParameters : Prop :=
  encode .gsrun = 0x28000000 ∧
  ∀ s : State, s.err = false →
    (TooLarge s →
      exec .gsrun s = .next (faulted { s with gsok := false } 0x10 (encode .gsrun)) ∧
      ∀ row col, exec (.gsmap row col) s = .next (faulted s 0x10 (encode (.gsmap row col)))) ∧
    (¬ TooLarge s → SamplerBad s →
      exec .gsrun s = .next (faulted { s with gsok := false } 0x05 (encode .gsrun)) ∧
      ∀ row col, exec (.gsmap row col) s = .next (faulted s 0x05 (encode (.gsmap row col)))) ∧
    (¬ TooLarge s → ¬ SamplerBad s → ∀ row col : BitVec 8,
      s.gs.size.toNat ≤ row.toNat ∨ s.gs.size.toNat ≤ col.toNat →
        exec (.gsmap row col) s = .next (faulted s 0x05 (encode (.gsmap row col))))

/-- GSMAP of a module of the matrix (42_grid_sampler.md R188, R193): where the centre maps into pixel (px, py) it
returns and records them; where it maps out it records the module and raises SampleOutOfBounds; nothing else
changes. -/
def Obligations.GsmapReturnsThePixel : Prop :=
  ∀ row col : BitVec 8,
    (encode (.gsmap row col)).toNat = 0x29000000 + row.toNat * 0x100 + col.toNat ∧
    ∀ s : State, s.err = false → ¬ TooLarge s → ¬ SamplerBad s →
      row.toNat < s.gs.size.toNat → col.toNat < s.gs.size.toNat →
      (∀ px py, MapsTo s col.toNat row.toNat px py →
        exec (.gsmap row col) s = .next { s with
          gs := { s.gs with mapx := BitVec.ofNat 12 px, mapy := BitVec.ofNat 12 py }
          rspOut := s.rspOut ++ [BitVec.ofNat 32 (py * 4096 + px)] }) ∧
      (MapsOut s col.toNat row.toNat →
        exec (.gsmap row col) s =
          .next (faulted { s with gs := { s.gs with failc := col, failr := row } } 0x11 (encode (.gsmap row col))))

/-- GSRUN where every module's centre maps into the bitmap (42_grid_sampler.md R188, R191): MM cell r·size + c holds
the bit of the pixel of module (c, r), every other cell is unchanged, GSOK is set, and nothing else changes. -/
def Obligations.GsrunSamplesEveryModule : Prop :=
  ∀ s : State, s.err = false → ¬ TooLarge s → ¬ SamplerBad s →
    (∀ c r, c < s.gs.size.toNat → r < s.gs.size.toNat → ¬ MapsOut s c r) →
    ∃ t, exec .gsrun s = .next t ∧
      t = { s with mem := t.mem, gsok := true, rspOut := s.rspOut ++ [0] } ∧
      (∀ c r px py, c < s.gs.size.toNat → r < s.gs.size.toNat → MapsTo s c r px py →
        readCell t .mm (r * s.gs.size.toNat + c) = readCell s .bm (py * s.img.w.toNat + px)) ∧
      (∀ i, s.gs.size.toNat * s.gs.size.toNat ≤ i → readCell t .mm i = readCell s .mm i) ∧ SameCellsBut .mm s t

/-- GSRUN where module (c, r) is the first, in row-major order, that maps out (42_grid_sampler.md R192): the modules
before it are sampled, its own cell and the later ones keep their contents, GS_FAILC and GS_FAILR name it, GSOK is
cleared, and SampleOutOfBounds is raised. -/
def Obligations.GsrunStopsAtTheFirstModuleOutside : Prop :=
  ∀ (s : State) (c r : Nat), s.err = false → ¬ TooLarge s → ¬ SamplerBad s →
    c < s.gs.size.toNat → r < s.gs.size.toNat → MapsOut s c r →
    (∀ c' r', c' < s.gs.size.toNat → r' * s.gs.size.toNat + c' < r * s.gs.size.toNat + c → ¬ MapsOut s c' r') →
    ∃ t, exec .gsrun s = .next t ∧
      t = faulted
        { s with
          mem := t.mem, gsok := false
          gs := { s.gs with failc := BitVec.ofNat 8 c, failr := BitVec.ofNat 8 r } } 0x11 (encode .gsrun) ∧
      (∀ c' r' px py, c' < s.gs.size.toNat → r' * s.gs.size.toNat + c' < r * s.gs.size.toNat + c →
        MapsTo s c' r' px py →
          readCell t .mm (r' * s.gs.size.toNat + c') = readCell s .bm (py * s.img.w.toNat + px)) ∧
      (∀ i, r * s.gs.size.toNat + c ≤ i → readCell t .mm i = readCell s .mm i) ∧ SameCellsBut .mm s t

/-- What H is (42_grid_sampler.md R187): it sends each of the four grid points to a non-zero multiple of its pixel
point, its determinant is not zero, and it is affine where both quadruples are parallelograms, as they are with three
points given. That no other map does so, up to scale, is not stated here. -/
def Obligations.TransformSendsGridPointsToPixelPoints : Prop :=
  ∀ s : State, ¬ ThreeCollinear (gridQuad s) → ¬ ThreeCollinear (pixelQuad s) →
    (∀ ab ∈ [((gridQuad s).p0, (pixelQuad s).p0), ((gridQuad s).p1, (pixelQuad s).p1),
        ((gridQuad s).p2, (pixelQuad s).p2), ((gridQuad s).p3, (pixelQuad s).p3)],
      ∃ k : Int, k ≠ 0 ∧ imageX (transform s) ab.1.fst ab.1.snd = k * ab.2.fst ∧
        imageY (transform s) ab.1.fst ab.1.snd = k * ab.2.snd ∧ imageW (transform s) ab.1.fst ab.1.snd = k) ∧
    (transform s).a * ((transform s).e * (transform s).i - (transform s).f * (transform s).h) -
        (transform s).b * ((transform s).d * (transform s).i - (transform s).f * (transform s).g) +
        (transform s).c * ((transform s).d * (transform s).h - (transform s).e * (transform s).g) ≠ 0 ∧
    ((gridQuad s).p3 = completeParallelogram (gridQuad s).p0 (gridQuad s).p1 (gridQuad s).p2 →
      (pixelQuad s).p3 = completeParallelogram (pixelQuad s).p0 (pixelQuad s).p1 (pixelQuad s).p2 →
      (transform s).g = 0 ∧ (transform s).h = 0) ∧
    (s.gs.npts.toNat = 3 → (transform s).g = 0 ∧ (transform s).h = 0)

/-- The widths of the exact arithmetic (42_grid_sampler.md R189): the determinants, the entries of the matrices, and
the three coordinates of every module of a matrix of at most 177 by 177. -/
def Obligations.SamplerArithmeticIsBounded : Prop :=
  ∀ s : State,
    let entries : Mat3 → List Int := fun m => [m.a, m.b, m.c, m.d, m.e, m.f, m.g, m.h, m.i]
    (∀ q ∈ [gridQuad s, pixelQuad s],
      (∀ z ∈ [quadLam q, quadMu q, quadTau q, quadDd q], |z| < 2 ^ 33) ∧ (∀ z ∈ entries (basis q), |z| < 2 ^ 49) ∧
        ∀ z ∈ entries (adj (basis q)), |z| < 2 ^ 100) ∧
    (∀ z ∈ entries (transform s), |z| < 2 ^ 151) ∧
    ∀ c r : Nat, c < 177 → r < 177 →
      |imageX (transform s) (2 * c + 1) (2 * r + 1)| < 2 ^ 162 ∧
      |imageY (transform s) (2 * c + 1) (2 * r + 1)| < 2 ^ 162 ∧
      |imageW (transform s) (2 * c + 1) (2 * r + 1)| < 2 ^ 162

/-! ## The Reed–Solomon decoder -/

/-- The one check of RSDEC (43_rs_decoder.md R211): BadParameter, RSOK cleared, nothing else changed. -/
def Obligations.RsdecChecksItsParameters : Prop :=
  encode .rsdec = 0x30000000 ∧
  ∀ s : State, s.err = false → ¬ RsReady s →
    exec .rsdec s = .next (faulted { s with rsok := false } 0x05 (encode .rsdec))

/-- After every RSDEC that passes its check SYN holds the values of the block's polynomial at α^0 .. α^(E−1), of the
block before correction, and zeros (43_rs_decoder.md R212, R214). -/
def Obligations.RsdecStoresTheSyndromes : Prop :=
  ∀ s : State, s.err = false → RsReady s →
    ∃ t, exec .rsdec s = .next t ∧
      ∀ j, j < 256 → readCell t .syn j =
        if j < s.rs.e.toNat then syndromeSum (readCell s .cw) (blockLength s) j else 0

/-- RSDEC on a codeword (43_rs_decoder.md R215): CW unchanged, LAM = 1, the other result cells zero, RS_L and RS_NERR
zero, RSOK set, nothing else changed. -/
def Obligations.RsdecAcceptsACodeword : Prop :=
  ∀ s : State, s.err = false → RsReady s → IsCodeword (readCell s .cw) (blockLength s) s.rs.e.toNat →
    ∃ t, exec .rsdec s = .next t ∧
      t = { s with mem := t.mem, rs := { s.rs with l := 0, nerr := 0 }, rsok := true, rspOut := s.rspOut ++ [0] } ∧
      (∀ i, i < 256 → readCell t .lam i = if i = 0 then 1 else 0) ∧
      (∀ i, i < 256 → readCell t .syn i = 0) ∧
      (∀ i, i < 128 → readCell t .epos i = 0 ∧ readCell t .emag i = 0) ∧
      ∀ sp, sp = .cw ∨ sp = .px ∨ sp = .bm ∨ sp = .mm ∨ sp = .thr → ∀ i, readCell t sp i = readCell s sp i

/-- RSDEC that corrects (43_rs_decoder.md R217, R218, R221): the block is no codeword, the register length is at most
t and equals the number of roots; then each root's cell is XORed with its magnitude, the positions and magnitudes are
recorded in order, and nothing else changes. -/
def Obligations.RsdecCorrectsTheRootPositions : Prop :=
  ∀ s : State, s.err = false → RsReady s → ¬ IsCodeword (readCell s .cw) (blockLength s) s.rs.e.toNat →
    (solved s).l ≤ s.rs.e.toNat / 2 → (rootPositions s).length = (solved s).l →
    ∃ t, exec .rsdec s = .next t ∧
      t = { s with
        mem := t.mem
        rs := { s.rs with l := BitVec.ofNat 8 (solved s).l, nerr := BitVec.ofNat 7 (solved s).l }
        rsok := true, rspOut := s.rspOut ++ [0] } ∧
      (∀ i, readCell t .cw i =
        if i ∈ rootPositions s then readCell s .cw i ^^^ magnitude s i else readCell s .cw i) ∧
      (∀ i, i < 256 → readCell t .lam i = coef (solved s).c i) ∧
      (∀ k, k < 128 → (readCell t .epos k).toNat = (rootPositions s).getD k 0) ∧
      (∀ k, k < 128 → readCell t .emag k = ((rootPositions s).map (magnitude s)).getD k 0) ∧
      ∀ sp, sp = .px ∨ sp = .bm ∨ sp = .mm ∨ sp = .thr → ∀ i, readCell t sp i = readCell s sp i

/-- RSDEC that does not correct (43_rs_decoder.md R217, R218, R222): the register length is above t or is not the
number of roots; then BlockUncorrectable is raised with the locator and its length recorded, CW unchanged, RSOK
cleared, EPOS, EMAG and RS_NERR zero. -/
def Obligations.RsdecReportsUncorrectableBlocks : Prop :=
  ∀ s : State, s.err = false → RsReady s → ¬ IsCodeword (readCell s .cw) (blockLength s) s.rs.e.toNat →
    s.rs.e.toNat / 2 < (solved s).l ∨ (rootPositions s).length ≠ (solved s).l →
    ∃ t, exec .rsdec s = .next t ∧
      t = faulted
        { s with
          mem := t.mem, rsok := false
          rs := { s.rs with l := BitVec.ofNat 8 (solved s).l, nerr := 0 } } 0x12 (encode .rsdec) ∧
      (∀ i, i < 256 → readCell t .lam i = coef (solved s).c i) ∧
      (∀ i, i < 128 → readCell t .epos i = 0 ∧ readCell t .emag i = 0) ∧
      ∀ sp, sp = .cw ∨ sp = .px ∨ sp = .bm ∨ sp = .mm ∨ sp = .thr → ∀ i, readCell t sp i = readCell s sp i

/-- What Berlekamp–Massey leaves (43_rs_decoder.md R216, R224 (a)): C[0] = 1, C has no coefficient above L, L is at
most E, the discrepancy it divides by is never zero, and C generates every syndrome from S_L on. -/
def Obligations.BerlekampMasseyGeneratesTheSyndromes : Prop :=
  ∀ (syn : List Byte) (e : Nat),
    coef (berlekampMassey syn e).c 0 = 1 ∧ (∀ i, (berlekampMassey syn e).l < i → coef (berlekampMassey syn e).c i = 0) ∧
    (berlekampMassey syn e).l ≤ e ∧ (berlekampMassey syn e).d ≠ 0 ∧
    1 ≤ (berlekampMassey syn e).m ∧ (berlekampMassey syn e).m ≤ e + 1 ∧
    ∀ r, (berlekampMassey syn e).l ≤ r → r < e →
      coef syn r =
        gfSum ((List.range (berlekampMassey syn e).l).map
          (fun i => gfMul (coef (berlekampMassey syn e).c (i + 1)) (coef syn (r - (i + 1)))))

/-- Forney's formula never divides by zero (43_rs_decoder.md R220, R224 (b)): where the search finds L positions, the
derivative of the locator polynomial is non-zero at each of them. -/
def Obligations.ForneyNeverDividesByZero : Prop :=
  ∀ s : State, RsReady s → (rootPositions s).length = (solved s).l →
    ∀ i ∈ rootPositions s, forneyDen (solved s).c (solved s).l (blockLength s) i ≠ 0

/-- A block that RSDEC accepts is a codeword afterwards (43_rs_decoder.md R222). -/
def Obligations.RsdecSuccessLeavesACodeword : Prop :=
  ∀ s t : State, s.err = false → exec .rsdec s = .next t → t.rsok = true →
    IsCodeword (readCell t .cw) (blockLength s) s.rs.e.toNat

/-- A block that differs from a codeword in at most t = floor(E / 2) cells is restored to exactly that codeword, with
RS_NERR the number of cells that differed (43_rs_decoder.md R223 (a)). -/
def Obligations.RsdecRestoresUpToTErrors : Prop :=
  ∀ (s : State) (cw : Nat → Byte), s.err = false → RsReady s → IsCodeword cw (blockLength s) s.rs.e.toNat →
    ((List.range (blockLength s)).filter (fun i => decide (readCell s .cw i ≠ cw i))).length ≤ s.rs.e.toNat / 2 →
    ∃ t, exec .rsdec s = .next t ∧ t.rsok = true ∧ t.err = false ∧
      (∀ i, i < blockLength s → readCell t .cw i = cw i) ∧
      t.rs.nerr.toNat =
        ((List.range (blockLength s)).filter (fun i => decide (readCell s .cw i ≠ cw i))).length

/-! ## The whole machine -/

/-- Only the field commands write a general register, and only their destination (10_state.md R22). -/
def Obligations.OnlyFieldCommandsWriteRegisters : Prop :=
  ∀ (i : Instr) (s t : State) (r : Reg), exec i s = .next t → readReg t r ≠ readReg s r → WritesGpr i r

/-- A cell of a space changes only under a command that the map of the spaces names as its writer
(10_state.md R45, 20_memory.md R64). -/
def Obligations.EachSpaceHasItsWriters : Prop :=
  ∀ (i : Instr) (s t : State) (sp : Space) (k : Nat),
    exec i s = .next t → readCell t sp k ≠ readCell s sp k → WritesSpace i sp

/-- A CSR reads differently after a command only if the command is one that its rule names as a writer
(10_state.md R29, R33, R34, R35, R36, R37, R39, R41): ERRCODE and ERRCMD only under CLRERR or a command that may raise
a fault, STATUS only under these and the three engines; and while an error is latched only CLRERR changes any. -/
def Obligations.EachCsrHasItsWriters : Prop :=
  ∀ (i : Instr) (s t : State) (c : Csr), exec i s = .next t → csrValue t c ≠ csrValue s c →
    WritesCsr i c ∧ (s.err = true → i = .clrerr)

/-- The flags (10_state.md R29, R30): each OK flag changes only under its engine's command, which sets it exactly when
it ends without a fault; ERR is cleared by CLRERR alone; a refused command and an illegal word change no OK flag. -/
def Obligations.EachFlagFollowsItsCommand : Prop :=
  (∀ (i : Instr) (s t : State), exec i s = .next t →
    (t.binok ≠ s.binok → i = .binrun) ∧ (t.gsok ≠ s.gsok → i = .gsrun) ∧ (t.rsok ≠ s.rsok → i = .rsdec) ∧
    (s.err = false → (i = .binrun → t.binok = !t.err) ∧ (i = .gsrun → t.gsok = !t.err) ∧
      (i = .rsdec → t.rsok = !t.err)) ∧
    (s.err = true → t.err = false → i = .clrerr) ∧
    (s.err = true → t.binok = s.binok ∧ t.gsok = s.gsok ∧ t.rsok = s.rsok)) ∧
  ∀ (s t : State) (w : Word32) (rest : List HostAction) (e : DecodeError),
    s.portIn = .command w :: rest → decode w = .error e → step s = .next t →
      t.binok = s.binok ∧ t.gsok = s.gsok ∧ t.rsok = s.rsok

/-- The frame of a faulting command (from 60_exceptions.md sections 2 and 4, R263 and R267): the latch holds a code that
the command may raise and its word, and its engine's flag is cleared. GS_FAILC and GS_FAILR change at most under
SampleOutOfBounds, MM at most under that of GSRUN, SYN, LAM, EPOS, EMAG and RS_L at most under BlockUncorrectable, which
leaves RS_NERR zero; all else is unchanged. Which of these cells change and what they then hold is said by GSMAP's,
GSRUN's and RSDEC's own statements. -/
def Obligations.FaultKeepsAllButLatchFlagAndResults : Prop :=
  ∀ (i : Instr) (s t : State), exec i s = .next t → s.err = false → t.err = true →
    ∃ code, MayRaise i code ∧
      t = { faulted s code.bits (encode i) with
        binok := t.binok, gsok := t.gsok, rsok := t.rsok, gs := t.gs, rs := t.rs, mem := t.mem } ∧
      (t.binok = if i = .binrun then false else s.binok) ∧ (t.gsok = if i = .gsrun then false else s.gsok) ∧
      (t.rsok = if i = .rsdec then false else s.rsok) ∧
      (code ≠ .sampleOutOfBounds → t.gs = s.gs) ∧
      t.gs = { s.gs with failc := t.gs.failc, failr := t.gs.failr } ∧
      (code ≠ .blockUncorrectable → t.rs = s.rs) ∧
      (code = .blockUncorrectable → t.rs = { s.rs with l := t.rs.l, nerr := 0 } ∧
        ∀ sp, sp = .cw ∨ sp = .px ∨ sp = .bm ∨ sp = .mm ∨ sp = .thr → ∀ k, readCell t sp k = readCell s sp k) ∧
      (code ≠ .blockUncorrectable → SameCellsBut .mm s t) ∧
      (¬ (i = .gsrun ∧ code = .sampleOutOfBounds) → ∀ k, readCell t .mm k = readCell s .mm k)

/-- What a fault depends on (60_exceptions.md R262): nine commands never fault while no error is latched; for the
others the latch after the command depends on nothing but the command, the flags, PTR and the CSRs, and for the three
commands that meet GFZero the registers, and for RSDEC the contents of CW: never on the contents of PX, BM or MM. -/
def Obligations.FaultsDependOnNoPixel : Prop :=
  (∀ (i : Instr) (s : State), s.err = false →
    i.mnemonic ∈ ["NOP", "CLRERR", "SETPTR", "GFLI", "GFMV", "GFRD", "GFADD", "GFMUL", "GFEXP"] →
    ∃ t, exec i s = .next t ∧ t.err = false) ∧
  ∀ (i : Instr) (s s' t t' : State),
    s' = { s with
      gpr := s'.gpr, mem := s'.mem, fill := s'.fill, portIn := s'.portIn, rspOut := s'.rspOut } →
    (i.mnemonic ∈ ["GFDIV", "GFINV", "GFLOG"] → s'.gpr = s.gpr) →
    (i = .rsdec → ∀ k, readCell s' .cw k = readCell s .cw k) →
    exec i s = .next t → exec i s' = .next t' →
      t'.err = t.err ∧ t'.errcode = t.errcode ∧ t'.errcmd = t.errcmd
end

