-- ==== Sys2Proof/Laws/State.lean ====
section
/-! SUPPORT. For each named update of the state, what each field is afterwards: one lemma per field per update, so
that no later proof unfolds a record update. -/

namespace Sys2Proof.Machine

variable (s : State)

/-! ## writeReg -/

@[simp] theorem writeReg_gpr (r : Reg) (v : Byte) : (writeReg s r v).gpr = s.gpr.set r.toNat v r.isLt := rfl
@[simp] theorem writeReg_ptr (r : Reg) (v : Byte) : (writeReg s r v).ptr = s.ptr := rfl
@[simp] theorem writeReg_err (r : Reg) (v : Byte) : (writeReg s r v).err = s.err := rfl
@[simp] theorem writeReg_binok (r : Reg) (v : Byte) : (writeReg s r v).binok = s.binok := rfl
@[simp] theorem writeReg_gsok (r : Reg) (v : Byte) : (writeReg s r v).gsok = s.gsok := rfl
@[simp] theorem writeReg_rsok (r : Reg) (v : Byte) : (writeReg s r v).rsok = s.rsok := rfl
@[simp] theorem writeReg_errcode (r : Reg) (v : Byte) : (writeReg s r v).errcode = s.errcode := rfl
@[simp] theorem writeReg_errcmd (r : Reg) (v : Byte) : (writeReg s r v).errcmd = s.errcmd := rfl
@[simp] theorem writeReg_img (r : Reg) (v : Byte) : (writeReg s r v).img = s.img := rfl
@[simp] theorem writeReg_gs (r : Reg) (v : Byte) : (writeReg s r v).gs = s.gs := rfl
@[simp] theorem writeReg_pts (r : Reg) (v : Byte) : (writeReg s r v).pts = s.pts := rfl
@[simp] theorem writeReg_rs (r : Reg) (v : Byte) : (writeReg s r v).rs = s.rs := rfl
@[simp] theorem writeReg_mem (r : Reg) (v : Byte) : (writeReg s r v).mem = s.mem := rfl
@[simp] theorem writeReg_maxPixLess1 (r : Reg) (v : Byte) : (writeReg s r v).maxPixLess1 = s.maxPixLess1 := rfl
@[simp] theorem writeReg_fill (r : Reg) (v : Byte) : (writeReg s r v).fill = s.fill := rfl
@[simp] theorem writeReg_portIn (r : Reg) (v : Byte) : (writeReg s r v).portIn = s.portIn := rfl
@[simp] theorem writeReg_rspOut (r : Reg) (v : Byte) : (writeReg s r v).rspOut = s.rspOut := rfl

/-! ## writeCell -/

@[simp] theorem writeCell_gpr (sp : Space) (i : Nat) (v : Byte) : (writeCell s sp i v).gpr = s.gpr := rfl
@[simp] theorem writeCell_ptr (sp : Space) (i : Nat) (v : Byte) : (writeCell s sp i v).ptr = s.ptr := rfl
@[simp] theorem writeCell_err (sp : Space) (i : Nat) (v : Byte) : (writeCell s sp i v).err = s.err := rfl
@[simp] theorem writeCell_binok (sp : Space) (i : Nat) (v : Byte) : (writeCell s sp i v).binok = s.binok := rfl
@[simp] theorem writeCell_gsok (sp : Space) (i : Nat) (v : Byte) : (writeCell s sp i v).gsok = s.gsok := rfl
@[simp] theorem writeCell_rsok (sp : Space) (i : Nat) (v : Byte) : (writeCell s sp i v).rsok = s.rsok := rfl
@[simp] theorem writeCell_errcode (sp : Space) (i : Nat) (v : Byte) : (writeCell s sp i v).errcode = s.errcode := rfl
@[simp] theorem writeCell_errcmd (sp : Space) (i : Nat) (v : Byte) : (writeCell s sp i v).errcmd = s.errcmd := rfl
@[simp] theorem writeCell_img (sp : Space) (i : Nat) (v : Byte) : (writeCell s sp i v).img = s.img := rfl
@[simp] theorem writeCell_gs (sp : Space) (i : Nat) (v : Byte) : (writeCell s sp i v).gs = s.gs := rfl
@[simp] theorem writeCell_pts (sp : Space) (i : Nat) (v : Byte) : (writeCell s sp i v).pts = s.pts := rfl
@[simp] theorem writeCell_rs (sp : Space) (i : Nat) (v : Byte) : (writeCell s sp i v).rs = s.rs := rfl
@[simp] theorem writeCell_mem (sp : Space) (i : Nat) (v : Byte) :
    (writeCell s sp i v).mem = setCells s.mem sp (putCell (cellsOf s.mem sp) i (fitCell sp v)) := rfl
@[simp] theorem writeCell_maxPixLess1 (sp : Space) (i : Nat) (v : Byte) :
    (writeCell s sp i v).maxPixLess1 = s.maxPixLess1 := rfl
@[simp] theorem writeCell_fill (sp : Space) (i : Nat) (v : Byte) : (writeCell s sp i v).fill = s.fill := rfl
@[simp] theorem writeCell_portIn (sp : Space) (i : Nat) (v : Byte) : (writeCell s sp i v).portIn = s.portIn := rfl
@[simp] theorem writeCell_rspOut (sp : Space) (i : Nat) (v : Byte) : (writeCell s sp i v).rspOut = s.rspOut := rfl

/-! ## writeFirst -/

@[simp] theorem writeFirst_gpr (sp : Space) (vs : List Byte) : (writeFirst s sp vs).gpr = s.gpr := rfl
@[simp] theorem writeFirst_ptr (sp : Space) (vs : List Byte) : (writeFirst s sp vs).ptr = s.ptr := rfl
@[simp] theorem writeFirst_err (sp : Space) (vs : List Byte) : (writeFirst s sp vs).err = s.err := rfl
@[simp] theorem writeFirst_binok (sp : Space) (vs : List Byte) : (writeFirst s sp vs).binok = s.binok := rfl
@[simp] theorem writeFirst_gsok (sp : Space) (vs : List Byte) : (writeFirst s sp vs).gsok = s.gsok := rfl
@[simp] theorem writeFirst_rsok (sp : Space) (vs : List Byte) : (writeFirst s sp vs).rsok = s.rsok := rfl
@[simp] theorem writeFirst_errcode (sp : Space) (vs : List Byte) : (writeFirst s sp vs).errcode = s.errcode := rfl
@[simp] theorem writeFirst_errcmd (sp : Space) (vs : List Byte) : (writeFirst s sp vs).errcmd = s.errcmd := rfl
@[simp] theorem writeFirst_img (sp : Space) (vs : List Byte) : (writeFirst s sp vs).img = s.img := rfl
@[simp] theorem writeFirst_gs (sp : Space) (vs : List Byte) : (writeFirst s sp vs).gs = s.gs := rfl
@[simp] theorem writeFirst_pts (sp : Space) (vs : List Byte) : (writeFirst s sp vs).pts = s.pts := rfl
@[simp] theorem writeFirst_rs (sp : Space) (vs : List Byte) : (writeFirst s sp vs).rs = s.rs := rfl
@[simp] theorem writeFirst_mem (sp : Space) (vs : List Byte) :
    (writeFirst s sp vs).mem =
      setCells s.mem sp
        (numberFrom 0 (vs.map (fitCell sp)) ++ (cellsOf s.mem sp).filter (fun c => decide (vs.length ≤ c.1))) := rfl
@[simp] theorem writeFirst_maxPixLess1 (sp : Space) (vs : List Byte) :
    (writeFirst s sp vs).maxPixLess1 = s.maxPixLess1 := rfl
@[simp] theorem writeFirst_fill (sp : Space) (vs : List Byte) : (writeFirst s sp vs).fill = s.fill := rfl
@[simp] theorem writeFirst_portIn (sp : Space) (vs : List Byte) : (writeFirst s sp vs).portIn = s.portIn := rfl
@[simp] theorem writeFirst_rspOut (sp : Space) (vs : List Byte) : (writeFirst s sp vs).rspOut = s.rspOut := rfl

/-! ## advancePtr -/

@[simp] theorem advancePtr_gpr : (advancePtr s).gpr = s.gpr := rfl
@[simp] theorem advancePtr_ptr : (advancePtr s).ptr = s.ptr + 1 := rfl
@[simp] theorem advancePtr_err : (advancePtr s).err = s.err := rfl
@[simp] theorem advancePtr_binok : (advancePtr s).binok = s.binok := rfl
@[simp] theorem advancePtr_gsok : (advancePtr s).gsok = s.gsok := rfl
@[simp] theorem advancePtr_rsok : (advancePtr s).rsok = s.rsok := rfl
@[simp] theorem advancePtr_errcode : (advancePtr s).errcode = s.errcode := rfl
@[simp] theorem advancePtr_errcmd : (advancePtr s).errcmd = s.errcmd := rfl
@[simp] theorem advancePtr_img : (advancePtr s).img = s.img := rfl
@[simp] theorem advancePtr_gs : (advancePtr s).gs = s.gs := rfl
@[simp] theorem advancePtr_pts : (advancePtr s).pts = s.pts := rfl
@[simp] theorem advancePtr_rs : (advancePtr s).rs = s.rs := rfl
@[simp] theorem advancePtr_mem : (advancePtr s).mem = s.mem := rfl
@[simp] theorem advancePtr_maxPixLess1 : (advancePtr s).maxPixLess1 = s.maxPixLess1 := rfl
@[simp] theorem advancePtr_fill : (advancePtr s).fill = s.fill := rfl
@[simp] theorem advancePtr_portIn : (advancePtr s).portIn = s.portIn := rfl
@[simp] theorem advancePtr_rspOut : (advancePtr s).rspOut = s.rspOut := rfl

/-! ## deliver -/

@[simp] theorem deliver_gpr (w : Word32) : (deliver s w).gpr = s.gpr := rfl
@[simp] theorem deliver_ptr (w : Word32) : (deliver s w).ptr = s.ptr := rfl
@[simp] theorem deliver_err (w : Word32) : (deliver s w).err = s.err := rfl
@[simp] theorem deliver_binok (w : Word32) : (deliver s w).binok = s.binok := rfl
@[simp] theorem deliver_gsok (w : Word32) : (deliver s w).gsok = s.gsok := rfl
@[simp] theorem deliver_rsok (w : Word32) : (deliver s w).rsok = s.rsok := rfl
@[simp] theorem deliver_errcode (w : Word32) : (deliver s w).errcode = s.errcode := rfl
@[simp] theorem deliver_errcmd (w : Word32) : (deliver s w).errcmd = s.errcmd := rfl
@[simp] theorem deliver_img (w : Word32) : (deliver s w).img = s.img := rfl
@[simp] theorem deliver_gs (w : Word32) : (deliver s w).gs = s.gs := rfl
@[simp] theorem deliver_pts (w : Word32) : (deliver s w).pts = s.pts := rfl
@[simp] theorem deliver_rs (w : Word32) : (deliver s w).rs = s.rs := rfl
@[simp] theorem deliver_mem (w : Word32) : (deliver s w).mem = s.mem := rfl
@[simp] theorem deliver_maxPixLess1 (w : Word32) : (deliver s w).maxPixLess1 = s.maxPixLess1 := rfl
@[simp] theorem deliver_fill (w : Word32) : (deliver s w).fill = s.fill := rfl
@[simp] theorem deliver_portIn (w : Word32) : (deliver s w).portIn = s.portIn := rfl
@[simp] theorem deliver_rspOut (w : Word32) : (deliver s w).rspOut = s.rspOut ++ [w] := rfl

/-! ## clearLatch -/

@[simp] theorem clearLatch_gpr : (clearLatch s).gpr = s.gpr := rfl
@[simp] theorem clearLatch_ptr : (clearLatch s).ptr = s.ptr := rfl
@[simp] theorem clearLatch_err : (clearLatch s).err = false := rfl
@[simp] theorem clearLatch_binok : (clearLatch s).binok = s.binok := rfl
@[simp] theorem clearLatch_gsok : (clearLatch s).gsok = s.gsok := rfl
@[simp] theorem clearLatch_rsok : (clearLatch s).rsok = s.rsok := rfl
@[simp] theorem clearLatch_errcode : (clearLatch s).errcode = 0 := rfl
@[simp] theorem clearLatch_errcmd : (clearLatch s).errcmd = 0 := rfl
@[simp] theorem clearLatch_img : (clearLatch s).img = s.img := rfl
@[simp] theorem clearLatch_gs : (clearLatch s).gs = s.gs := rfl
@[simp] theorem clearLatch_pts : (clearLatch s).pts = s.pts := rfl
@[simp] theorem clearLatch_rs : (clearLatch s).rs = s.rs := rfl
@[simp] theorem clearLatch_mem : (clearLatch s).mem = s.mem := rfl
@[simp] theorem clearLatch_maxPixLess1 : (clearLatch s).maxPixLess1 = s.maxPixLess1 := rfl
@[simp] theorem clearLatch_fill : (clearLatch s).fill = s.fill := rfl
@[simp] theorem clearLatch_portIn : (clearLatch s).portIn = s.portIn := rfl
@[simp] theorem clearLatch_rspOut : (clearLatch s).rspOut = s.rspOut := rfl

/-! ## setBinok -/

@[simp] theorem setBinok_gpr (b : Bool) : (setBinok s b).gpr = s.gpr := rfl
@[simp] theorem setBinok_ptr (b : Bool) : (setBinok s b).ptr = s.ptr := rfl
@[simp] theorem setBinok_err (b : Bool) : (setBinok s b).err = s.err := rfl
@[simp] theorem setBinok_binok (b : Bool) : (setBinok s b).binok = b := rfl
@[simp] theorem setBinok_gsok (b : Bool) : (setBinok s b).gsok = s.gsok := rfl
@[simp] theorem setBinok_rsok (b : Bool) : (setBinok s b).rsok = s.rsok := rfl
@[simp] theorem setBinok_errcode (b : Bool) : (setBinok s b).errcode = s.errcode := rfl
@[simp] theorem setBinok_errcmd (b : Bool) : (setBinok s b).errcmd = s.errcmd := rfl
@[simp] theorem setBinok_img (b : Bool) : (setBinok s b).img = s.img := rfl
@[simp] theorem setBinok_gs (b : Bool) : (setBinok s b).gs = s.gs := rfl
@[simp] theorem setBinok_pts (b : Bool) : (setBinok s b).pts = s.pts := rfl
@[simp] theorem setBinok_rs (b : Bool) : (setBinok s b).rs = s.rs := rfl
@[simp] theorem setBinok_mem (b : Bool) : (setBinok s b).mem = s.mem := rfl
@[simp] theorem setBinok_maxPixLess1 (b : Bool) : (setBinok s b).maxPixLess1 = s.maxPixLess1 := rfl
@[simp] theorem setBinok_fill (b : Bool) : (setBinok s b).fill = s.fill := rfl
@[simp] theorem setBinok_portIn (b : Bool) : (setBinok s b).portIn = s.portIn := rfl
@[simp] theorem setBinok_rspOut (b : Bool) : (setBinok s b).rspOut = s.rspOut := rfl

/-! ## setGsok -/

@[simp] theorem setGsok_gpr (b : Bool) : (setGsok s b).gpr = s.gpr := rfl
@[simp] theorem setGsok_ptr (b : Bool) : (setGsok s b).ptr = s.ptr := rfl
@[simp] theorem setGsok_err (b : Bool) : (setGsok s b).err = s.err := rfl
@[simp] theorem setGsok_binok (b : Bool) : (setGsok s b).binok = s.binok := rfl
@[simp] theorem setGsok_gsok (b : Bool) : (setGsok s b).gsok = b := rfl
@[simp] theorem setGsok_rsok (b : Bool) : (setGsok s b).rsok = s.rsok := rfl
@[simp] theorem setGsok_errcode (b : Bool) : (setGsok s b).errcode = s.errcode := rfl
@[simp] theorem setGsok_errcmd (b : Bool) : (setGsok s b).errcmd = s.errcmd := rfl
@[simp] theorem setGsok_img (b : Bool) : (setGsok s b).img = s.img := rfl
@[simp] theorem setGsok_gs (b : Bool) : (setGsok s b).gs = s.gs := rfl
@[simp] theorem setGsok_pts (b : Bool) : (setGsok s b).pts = s.pts := rfl
@[simp] theorem setGsok_rs (b : Bool) : (setGsok s b).rs = s.rs := rfl
@[simp] theorem setGsok_mem (b : Bool) : (setGsok s b).mem = s.mem := rfl
@[simp] theorem setGsok_maxPixLess1 (b : Bool) : (setGsok s b).maxPixLess1 = s.maxPixLess1 := rfl
@[simp] theorem setGsok_fill (b : Bool) : (setGsok s b).fill = s.fill := rfl
@[simp] theorem setGsok_portIn (b : Bool) : (setGsok s b).portIn = s.portIn := rfl
@[simp] theorem setGsok_rspOut (b : Bool) : (setGsok s b).rspOut = s.rspOut := rfl

/-! ## setRsok -/

@[simp] theorem setRsok_gpr (b : Bool) : (setRsok s b).gpr = s.gpr := rfl
@[simp] theorem setRsok_ptr (b : Bool) : (setRsok s b).ptr = s.ptr := rfl
@[simp] theorem setRsok_err (b : Bool) : (setRsok s b).err = s.err := rfl
@[simp] theorem setRsok_binok (b : Bool) : (setRsok s b).binok = s.binok := rfl
@[simp] theorem setRsok_gsok (b : Bool) : (setRsok s b).gsok = s.gsok := rfl
@[simp] theorem setRsok_rsok (b : Bool) : (setRsok s b).rsok = b := rfl
@[simp] theorem setRsok_errcode (b : Bool) : (setRsok s b).errcode = s.errcode := rfl
@[simp] theorem setRsok_errcmd (b : Bool) : (setRsok s b).errcmd = s.errcmd := rfl
@[simp] theorem setRsok_img (b : Bool) : (setRsok s b).img = s.img := rfl
@[simp] theorem setRsok_gs (b : Bool) : (setRsok s b).gs = s.gs := rfl
@[simp] theorem setRsok_pts (b : Bool) : (setRsok s b).pts = s.pts := rfl
@[simp] theorem setRsok_rs (b : Bool) : (setRsok s b).rs = s.rs := rfl
@[simp] theorem setRsok_mem (b : Bool) : (setRsok s b).mem = s.mem := rfl
@[simp] theorem setRsok_maxPixLess1 (b : Bool) : (setRsok s b).maxPixLess1 = s.maxPixLess1 := rfl
@[simp] theorem setRsok_fill (b : Bool) : (setRsok s b).fill = s.fill := rfl
@[simp] theorem setRsok_portIn (b : Bool) : (setRsok s b).portIn = s.portIn := rfl
@[simp] theorem setRsok_rspOut (b : Bool) : (setRsok s b).rspOut = s.rspOut := rfl

/-! ## setPoint -/

@[simp] theorem setPoint_gpr (i : Fin 4) (p : RefPoint) : (setPoint s i p).gpr = s.gpr := rfl
@[simp] theorem setPoint_ptr (i : Fin 4) (p : RefPoint) : (setPoint s i p).ptr = s.ptr := rfl
@[simp] theorem setPoint_err (i : Fin 4) (p : RefPoint) : (setPoint s i p).err = s.err := rfl
@[simp] theorem setPoint_binok (i : Fin 4) (p : RefPoint) : (setPoint s i p).binok = s.binok := rfl
@[simp] theorem setPoint_gsok (i : Fin 4) (p : RefPoint) : (setPoint s i p).gsok = s.gsok := rfl
@[simp] theorem setPoint_rsok (i : Fin 4) (p : RefPoint) : (setPoint s i p).rsok = s.rsok := rfl
@[simp] theorem setPoint_errcode (i : Fin 4) (p : RefPoint) : (setPoint s i p).errcode = s.errcode := rfl
@[simp] theorem setPoint_errcmd (i : Fin 4) (p : RefPoint) : (setPoint s i p).errcmd = s.errcmd := rfl
@[simp] theorem setPoint_img (i : Fin 4) (p : RefPoint) : (setPoint s i p).img = s.img := rfl
@[simp] theorem setPoint_gs (i : Fin 4) (p : RefPoint) : (setPoint s i p).gs = s.gs := rfl
@[simp] theorem setPoint_pts (i : Fin 4) (p : RefPoint) : (setPoint s i p).pts = s.pts.set i.val p i.isLt := rfl
@[simp] theorem setPoint_rs (i : Fin 4) (p : RefPoint) : (setPoint s i p).rs = s.rs := rfl
@[simp] theorem setPoint_mem (i : Fin 4) (p : RefPoint) : (setPoint s i p).mem = s.mem := rfl
@[simp] theorem setPoint_maxPixLess1 (i : Fin 4) (p : RefPoint) : (setPoint s i p).maxPixLess1 = s.maxPixLess1 := rfl
@[simp] theorem setPoint_fill (i : Fin 4) (p : RefPoint) : (setPoint s i p).fill = s.fill := rfl
@[simp] theorem setPoint_portIn (i : Fin 4) (p : RefPoint) : (setPoint s i p).portIn = s.portIn := rfl
@[simp] theorem setPoint_rspOut (i : Fin 4) (p : RefPoint) : (setPoint s i p).rspOut = s.rspOut := rfl

/-! ## setFail -/

@[simp] theorem setFail_gpr (c r : Nat) : (setFail s c r).gpr = s.gpr := rfl
@[simp] theorem setFail_ptr (c r : Nat) : (setFail s c r).ptr = s.ptr := rfl
@[simp] theorem setFail_err (c r : Nat) : (setFail s c r).err = s.err := rfl
@[simp] theorem setFail_binok (c r : Nat) : (setFail s c r).binok = s.binok := rfl
@[simp] theorem setFail_gsok (c r : Nat) : (setFail s c r).gsok = s.gsok := rfl
@[simp] theorem setFail_rsok (c r : Nat) : (setFail s c r).rsok = s.rsok := rfl
@[simp] theorem setFail_errcode (c r : Nat) : (setFail s c r).errcode = s.errcode := rfl
@[simp] theorem setFail_errcmd (c r : Nat) : (setFail s c r).errcmd = s.errcmd := rfl
@[simp] theorem setFail_img (c r : Nat) : (setFail s c r).img = s.img := rfl
@[simp] theorem setFail_gs (c r : Nat) :
    (setFail s c r).gs = ⟨s.gs.size, s.gs.npts, s.gs.mapx, s.gs.mapy, BitVec.ofNat 8 c, BitVec.ofNat 8 r⟩ := rfl
@[simp] theorem setFail_pts (c r : Nat) : (setFail s c r).pts = s.pts := rfl
@[simp] theorem setFail_rs (c r : Nat) : (setFail s c r).rs = s.rs := rfl
@[simp] theorem setFail_mem (c r : Nat) : (setFail s c r).mem = s.mem := rfl
@[simp] theorem setFail_maxPixLess1 (c r : Nat) : (setFail s c r).maxPixLess1 = s.maxPixLess1 := rfl
@[simp] theorem setFail_fill (c r : Nat) : (setFail s c r).fill = s.fill := rfl
@[simp] theorem setFail_portIn (c r : Nat) : (setFail s c r).portIn = s.portIn := rfl
@[simp] theorem setFail_rspOut (c r : Nat) : (setFail s c r).rspOut = s.rspOut := rfl

/-! ## setMap -/

@[simp] theorem setMap_gpr (px py : Nat) : (setMap s px py).gpr = s.gpr := rfl
@[simp] theorem setMap_ptr (px py : Nat) : (setMap s px py).ptr = s.ptr := rfl
@[simp] theorem setMap_err (px py : Nat) : (setMap s px py).err = s.err := rfl
@[simp] theorem setMap_binok (px py : Nat) : (setMap s px py).binok = s.binok := rfl
@[simp] theorem setMap_gsok (px py : Nat) : (setMap s px py).gsok = s.gsok := rfl
@[simp] theorem setMap_rsok (px py : Nat) : (setMap s px py).rsok = s.rsok := rfl
@[simp] theorem setMap_errcode (px py : Nat) : (setMap s px py).errcode = s.errcode := rfl
@[simp] theorem setMap_errcmd (px py : Nat) : (setMap s px py).errcmd = s.errcmd := rfl
@[simp] theorem setMap_img (px py : Nat) : (setMap s px py).img = s.img := rfl
@[simp] theorem setMap_gs (px py : Nat) :
    (setMap s px py).gs =
      ⟨s.gs.size, s.gs.npts, BitVec.ofNat 12 px, BitVec.ofNat 12 py, s.gs.failc, s.gs.failr⟩ := rfl
@[simp] theorem setMap_pts (px py : Nat) : (setMap s px py).pts = s.pts := rfl
@[simp] theorem setMap_rs (px py : Nat) : (setMap s px py).rs = s.rs := rfl
@[simp] theorem setMap_mem (px py : Nat) : (setMap s px py).mem = s.mem := rfl
@[simp] theorem setMap_maxPixLess1 (px py : Nat) : (setMap s px py).maxPixLess1 = s.maxPixLess1 := rfl
@[simp] theorem setMap_fill (px py : Nat) : (setMap s px py).fill = s.fill := rfl
@[simp] theorem setMap_portIn (px py : Nat) : (setMap s px py).portIn = s.portIn := rfl
@[simp] theorem setMap_rspOut (px py : Nat) : (setMap s px py).rspOut = s.rspOut := rfl

/-! ## storeSyndromes -/

@[simp] theorem storeSyndromes_gpr (syn : List Byte) : (storeSyndromes s syn).gpr = s.gpr := by
  simp only [storeSyndromes, writeFirst_gpr]
@[simp] theorem storeSyndromes_ptr (syn : List Byte) : (storeSyndromes s syn).ptr = s.ptr := by
  simp only [storeSyndromes, writeFirst_ptr]
@[simp] theorem storeSyndromes_err (syn : List Byte) : (storeSyndromes s syn).err = s.err := by
  simp only [storeSyndromes, writeFirst_err]
@[simp] theorem storeSyndromes_binok (syn : List Byte) : (storeSyndromes s syn).binok = s.binok := by
  simp only [storeSyndromes, writeFirst_binok]
@[simp] theorem storeSyndromes_gsok (syn : List Byte) : (storeSyndromes s syn).gsok = s.gsok := by
  simp only [storeSyndromes, writeFirst_gsok]
@[simp] theorem storeSyndromes_rsok (syn : List Byte) : (storeSyndromes s syn).rsok = s.rsok := by
  simp only [storeSyndromes, writeFirst_rsok]
@[simp] theorem storeSyndromes_errcode (syn : List Byte) : (storeSyndromes s syn).errcode = s.errcode := by
  simp only [storeSyndromes, writeFirst_errcode]
@[simp] theorem storeSyndromes_errcmd (syn : List Byte) : (storeSyndromes s syn).errcmd = s.errcmd := by
  simp only [storeSyndromes, writeFirst_errcmd]
@[simp] theorem storeSyndromes_img (syn : List Byte) : (storeSyndromes s syn).img = s.img := by
  simp only [storeSyndromes, writeFirst_img]
@[simp] theorem storeSyndromes_gs (syn : List Byte) : (storeSyndromes s syn).gs = s.gs := by
  simp only [storeSyndromes, writeFirst_gs]
@[simp] theorem storeSyndromes_pts (syn : List Byte) : (storeSyndromes s syn).pts = s.pts := by
  simp only [storeSyndromes, writeFirst_pts]
@[simp] theorem storeSyndromes_rs (syn : List Byte) : (storeSyndromes s syn).rs = ⟨s.rs.k, s.rs.e, s.rs.l, 0⟩ := by
  simp only [storeSyndromes, writeFirst_rs]
@[simp] theorem storeSyndromes_maxPixLess1 (syn : List Byte) :
    (storeSyndromes s syn).maxPixLess1 = s.maxPixLess1 := by
  simp only [storeSyndromes, writeFirst_maxPixLess1]
@[simp] theorem storeSyndromes_fill (syn : List Byte) : (storeSyndromes s syn).fill = s.fill := by
  simp only [storeSyndromes, writeFirst_fill]
@[simp] theorem storeSyndromes_portIn (syn : List Byte) : (storeSyndromes s syn).portIn = s.portIn := by
  simp only [storeSyndromes, writeFirst_portIn]
@[simp] theorem storeSyndromes_rspOut (syn : List Byte) : (storeSyndromes s syn).rspOut = s.rspOut := by
  simp only [storeSyndromes, writeFirst_rspOut]

/-! ## storeLocator -/

@[simp] theorem storeLocator_gpr (c : List Byte) (l : Nat) : (storeLocator s c l).gpr = s.gpr := by
  simp only [storeLocator, writeFirst_gpr]
@[simp] theorem storeLocator_ptr (c : List Byte) (l : Nat) : (storeLocator s c l).ptr = s.ptr := by
  simp only [storeLocator, writeFirst_ptr]
@[simp] theorem storeLocator_err (c : List Byte) (l : Nat) : (storeLocator s c l).err = s.err := by
  simp only [storeLocator, writeFirst_err]
@[simp] theorem storeLocator_binok (c : List Byte) (l : Nat) : (storeLocator s c l).binok = s.binok := by
  simp only [storeLocator, writeFirst_binok]
@[simp] theorem storeLocator_gsok (c : List Byte) (l : Nat) : (storeLocator s c l).gsok = s.gsok := by
  simp only [storeLocator, writeFirst_gsok]
@[simp] theorem storeLocator_rsok (c : List Byte) (l : Nat) : (storeLocator s c l).rsok = s.rsok := by
  simp only [storeLocator, writeFirst_rsok]
@[simp] theorem storeLocator_errcode (c : List Byte) (l : Nat) : (storeLocator s c l).errcode = s.errcode := by
  simp only [storeLocator, writeFirst_errcode]
@[simp] theorem storeLocator_errcmd (c : List Byte) (l : Nat) : (storeLocator s c l).errcmd = s.errcmd := by
  simp only [storeLocator, writeFirst_errcmd]
@[simp] theorem storeLocator_img (c : List Byte) (l : Nat) : (storeLocator s c l).img = s.img := by
  simp only [storeLocator, writeFirst_img]
@[simp] theorem storeLocator_gs (c : List Byte) (l : Nat) : (storeLocator s c l).gs = s.gs := by
  simp only [storeLocator, writeFirst_gs]
@[simp] theorem storeLocator_pts (c : List Byte) (l : Nat) : (storeLocator s c l).pts = s.pts := by
  simp only [storeLocator, writeFirst_pts]
@[simp] theorem storeLocator_rs (c : List Byte) (l : Nat) :
    (storeLocator s c l).rs = ⟨s.rs.k, s.rs.e, BitVec.ofNat 8 l, s.rs.nerr⟩ := by
  simp only [storeLocator, writeFirst_rs]
@[simp] theorem storeLocator_maxPixLess1 (c : List Byte) (l : Nat) :
    (storeLocator s c l).maxPixLess1 = s.maxPixLess1 := by
  simp only [storeLocator, writeFirst_maxPixLess1]
@[simp] theorem storeLocator_fill (c : List Byte) (l : Nat) : (storeLocator s c l).fill = s.fill := by
  simp only [storeLocator, writeFirst_fill]
@[simp] theorem storeLocator_portIn (c : List Byte) (l : Nat) : (storeLocator s c l).portIn = s.portIn := by
  simp only [storeLocator, writeFirst_portIn]
@[simp] theorem storeLocator_rspOut (c : List Byte) (l : Nat) : (storeLocator s c l).rspOut = s.rspOut := by
  simp only [storeLocator, writeFirst_rspOut]

/-! ## storeCorrections -/

@[simp] theorem storeCorrections_gpr (fixes : List (Nat × Byte)) : (storeCorrections s fixes).gpr = s.gpr := by
  simp only [storeCorrections, writeFirst_gpr]
@[simp] theorem storeCorrections_ptr (fixes : List (Nat × Byte)) : (storeCorrections s fixes).ptr = s.ptr := by
  simp only [storeCorrections, writeFirst_ptr]
@[simp] theorem storeCorrections_err (fixes : List (Nat × Byte)) : (storeCorrections s fixes).err = s.err := by
  simp only [storeCorrections, writeFirst_err]
@[simp] theorem storeCorrections_binok (fixes : List (Nat × Byte)) : (storeCorrections s fixes).binok = s.binok := by
  simp only [storeCorrections, writeFirst_binok]
@[simp] theorem storeCorrections_gsok (fixes : List (Nat × Byte)) : (storeCorrections s fixes).gsok = s.gsok := by
  simp only [storeCorrections, writeFirst_gsok]
@[simp] theorem storeCorrections_rsok (fixes : List (Nat × Byte)) : (storeCorrections s fixes).rsok = s.rsok := by
  simp only [storeCorrections, writeFirst_rsok]
@[simp] theorem storeCorrections_errcode (fixes : List (Nat × Byte)) :
    (storeCorrections s fixes).errcode = s.errcode := by
  simp only [storeCorrections, writeFirst_errcode]
@[simp] theorem storeCorrections_errcmd (fixes : List (Nat × Byte)) :
    (storeCorrections s fixes).errcmd = s.errcmd := by
  simp only [storeCorrections, writeFirst_errcmd]
@[simp] theorem storeCorrections_img (fixes : List (Nat × Byte)) : (storeCorrections s fixes).img = s.img := by
  simp only [storeCorrections, writeFirst_img]
@[simp] theorem storeCorrections_gs (fixes : List (Nat × Byte)) : (storeCorrections s fixes).gs = s.gs := by
  simp only [storeCorrections, writeFirst_gs]
@[simp] theorem storeCorrections_pts (fixes : List (Nat × Byte)) : (storeCorrections s fixes).pts = s.pts := by
  simp only [storeCorrections, writeFirst_pts]
@[simp] theorem storeCorrections_rs (fixes : List (Nat × Byte)) :
    (storeCorrections s fixes).rs = ⟨s.rs.k, s.rs.e, s.rs.l, BitVec.ofNat 7 fixes.length⟩ := by
  simp only [storeCorrections, writeFirst_rs]
@[simp] theorem storeCorrections_maxPixLess1 (fixes : List (Nat × Byte)) :
    (storeCorrections s fixes).maxPixLess1 = s.maxPixLess1 := by
  simp only [storeCorrections, writeFirst_maxPixLess1]
@[simp] theorem storeCorrections_fill (fixes : List (Nat × Byte)) : (storeCorrections s fixes).fill = s.fill := by
  simp only [storeCorrections, writeFirst_fill]
@[simp] theorem storeCorrections_portIn (fixes : List (Nat × Byte)) :
    (storeCorrections s fixes).portIn = s.portIn := by
  simp only [storeCorrections, writeFirst_portIn]
@[simp] theorem storeCorrections_rspOut (fixes : List (Nat × Byte)) :
    (storeCorrections s fixes).rspOut = s.rspOut := by
  simp only [storeCorrections, writeFirst_rspOut]

/-! ## binarize -/

@[simp] theorem binarize_gpr : (binarize s).gpr = s.gpr := by
  simp only [binarize, writeFirst_gpr]
@[simp] theorem binarize_ptr : (binarize s).ptr = s.ptr := by
  simp only [binarize, writeFirst_ptr]
@[simp] theorem binarize_err : (binarize s).err = s.err := by
  simp only [binarize, writeFirst_err]
@[simp] theorem binarize_binok : (binarize s).binok = s.binok := by
  simp only [binarize, writeFirst_binok]
@[simp] theorem binarize_gsok : (binarize s).gsok = s.gsok := by
  simp only [binarize, writeFirst_gsok]
@[simp] theorem binarize_rsok : (binarize s).rsok = s.rsok := by
  simp only [binarize, writeFirst_rsok]
@[simp] theorem binarize_errcode : (binarize s).errcode = s.errcode := by
  simp only [binarize, writeFirst_errcode]
@[simp] theorem binarize_errcmd : (binarize s).errcmd = s.errcmd := by
  simp only [binarize, writeFirst_errcmd]
@[simp] theorem binarize_img : (binarize s).img = s.img := by
  simp only [binarize, writeFirst_img]
@[simp] theorem binarize_gs : (binarize s).gs = s.gs := by
  simp only [binarize, writeFirst_gs]
@[simp] theorem binarize_pts : (binarize s).pts = s.pts := by
  simp only [binarize, writeFirst_pts]
@[simp] theorem binarize_rs : (binarize s).rs = s.rs := by
  simp only [binarize, writeFirst_rs]
@[simp] theorem binarize_maxPixLess1 : (binarize s).maxPixLess1 = s.maxPixLess1 := by
  simp only [binarize, writeFirst_maxPixLess1]
@[simp] theorem binarize_fill : (binarize s).fill = s.fill := by
  simp only [binarize, writeFirst_fill]
@[simp] theorem binarize_portIn : (binarize s).portIn = s.portIn := by
  simp only [binarize, writeFirst_portIn]
@[simp] theorem binarize_rspOut : (binarize s).rspOut = s.rspOut := by
  simp only [binarize, writeFirst_rspOut]

end Sys2Proof.Machine
end

