-- ==== Sys2Proof/Laws/Ops.lean ====
section
/-! SUPPORT. What each shared operation of Machine/Ops.lean does, said once: registers, cells, the canonical form of
the memory, responses and faults. -/

namespace Sys2Proof.Machine

/-! ## General registers -/

/-- Reading after writing (10_state.md R21): no register is hardwired, none is an alias of another. -/
theorem readReg_writeReg (s : State) (r r' : Reg) (v : Byte) :
    readReg (writeReg s r v) r' = if r' = r then v else readReg s r' := by
  simp only [readReg, writeReg, Vector.get_eq_getElem, BitVec.val_toFin, Vector.getElem_set]
  by_cases h : r = r'
  · subst h; simp
  · have : r.toNat ≠ r'.toNat := fun e => h (BitVec.eq_of_toNat_eq e)
    simp [this, Ne.symm h]

/-- A register reads the same where the register file is the same. -/
theorem readReg_congr {s t : State} (h : t.gpr = s.gpr) (r : Reg) : readReg t r = readReg s r := by
  simp only [readReg, h]

/-! ## Lists of cells -/

theorem findCell_putCell (l : List Host.Cell) (i j : Nat) (v : Byte) :
    findCell (putCell l i v) j = if j = i then some v else findCell l j := by
  induction l with
  | nil => simp only [putCell, findCell]
  | cons c l ih =>
    obtain ⟨k, u⟩ := c
    simp only [putCell]
    split
    · simp only [findCell]
    · split
      · rename_i h; subst h
        simp only [findCell]; split <;> rfl
      · rename_i h1 h2
        simp only [findCell, ih]
        by_cases hj : j = k
        · have : ¬ k = i := fun e => h2 e.symm
          simp [hj, this]
        · simp [hj]

theorem findCell_numberFrom (vs : List Byte) (a j : Nat) :
    findCell (numberFrom a vs) j = if a ≤ j then vs[j - a]? else none := by
  induction vs generalizing a with
  | nil => simp [numberFrom, findCell]
  | cons v vs ih =>
    simp only [numberFrom, findCell, ih]
    by_cases h : j = a
    · simp [h]
    · by_cases h1 : a ≤ j
      · have : j - a = (j - (a + 1)) + 1 := by omega
        rw [if_neg h, if_pos (by omega : a + 1 ≤ j), if_pos h1, this, List.getElem?_cons_succ]
      · rw [if_neg h, if_neg (by omega : ¬ a + 1 ≤ j), if_neg h1]

theorem findCell_append (l m : List Host.Cell) (j : Nat) :
    findCell (l ++ m) j = (findCell l j).or (findCell m j) := by
  induction l with
  | nil => simp [findCell]
  | cons c l ih =>
    obtain ⟨k, u⟩ := c
    simp only [List.cons_append, findCell, ih]
    split <;> simp

theorem findCell_filter_le (l : List Host.Cell) (n j : Nat) :
    findCell (l.filter (fun c => decide (n ≤ c.1))) j = if n ≤ j then findCell l j else none := by
  induction l with
  | nil => simp [findCell]
  | cons c l ih =>
    obtain ⟨k, u⟩ := c
    by_cases hk : n ≤ k
    · simp only [List.filter_cons, hk, decide_true, if_true, findCell, ih]
      by_cases hj : j = k
      · simp [hj, hk]
      · simp [hj]
    · rw [List.filter_cons_of_neg (by simpa using hk), ih, findCell]
      by_cases hj : n ≤ j
      · rw [if_pos hj, if_pos hj, if_neg (by omega)]
      · rw [if_neg hj, if_neg hj]

/-! ## Cells of the spaces -/

@[simp] theorem cellsOf_setCells (m : Memory) (sp sp' : Space) (l : List Host.Cell) :
    cellsOf (setCells m sp l) sp' = if sp' = sp then l else cellsOf m sp' := by
  cases sp <;> cases sp' <;> rfl

@[simp] theorem fitCell_fitCell (sp : Space) (v : Byte) : fitCell sp (fitCell sp v) = fitCell sp v := by
  unfold fitCell
  split
  · rw [BitVec.and_assoc]; simp
  · rfl

/-- A cell reads the same where the space's listed cells and `fill` are the same. -/
theorem readCell_congr {s t : State} (sp : Space) (hm : cellsOf t.mem sp = cellsOf s.mem sp)
    (he : t.fill = s.fill) (i : Nat) : readCell t sp i = readCell s sp i := by
  simp only [readCell, hm, he]

/-- MemRead after MemWrite (20_memory.md R70 (a)): the written cell reads as what it keeps of the value, every other
cell of every space as before. -/
theorem readCell_writeCell (s : State) (sp sp' : Space) (i j : Nat) (v : Byte) :
    readCell (writeCell s sp i v) sp' j = if sp' = sp ∧ j = i then fitCell sp v else readCell s sp' j := by
  simp only [readCell, writeCell_mem, writeCell_fill, cellsOf_setCells]
  by_cases h : sp' = sp
  · subst h
    simp only [if_true, findCell_putCell, true_and]
    by_cases hj : j = i
    · simp [hj]
    · simp [hj]
  · simp [h]

/-- MemRead after an engine has written the first cells of a space: those read as what they keep of their values,
every other cell of every space as before. -/
theorem readCell_writeFirst (s : State) (sp sp' : Space) (vs : List Byte) (j : Nat) :
    readCell (writeFirst s sp vs) sp' j =
      if sp' = sp ∧ j < vs.length then fitCell sp (vs.getD j 0) else readCell s sp' j := by
  simp only [readCell, writeFirst_mem, writeFirst_fill, cellsOf_setCells]
  by_cases h : sp' = sp
  · subst h
    simp only [if_true, true_and, findCell_append, findCell_numberFrom, findCell_filter_le, Nat.zero_le, Nat.sub_zero,
      List.getElem?_map, List.getD_eq_getElem?_getD]
    by_cases hj : j < vs.length
    · simp [hj]
    · simp [hj, Nat.le_of_not_lt hj]
  · simp [h]

/-! ## The canonical form -/

/-- Every index of a rising list of cells exceeds the first. -/
theorem rising_cons (i : Nat) (v : Byte) (l : List Host.Cell) :
    risingBool ((i, v) :: l) = true ↔ (∀ c ∈ l, i < c.1) ∧ risingBool l = true := by
  induction l generalizing i v with
  | nil => simp [risingBool]
  | cons c l ih =>
    obtain ⟨j, u⟩ := c
    rw [risingBool, Bool.and_eq_true, decide_eq_true_iff]
    constructor
    · rintro ⟨hij, hr⟩
      refine ⟨?_, hr⟩
      intro c hc
      rcases List.mem_cons.1 hc with rfl | hc
      · exact hij
      · exact lt_trans hij (((ih j u).1 hr).1 c hc)
    · rintro ⟨h, hr⟩
      exact ⟨h (j, u) (List.mem_cons_self ..), hr⟩

theorem mem_putCell {l : List Host.Cell} {i : Nat} {v : Byte} {c : Host.Cell} (h : c ∈ putCell l i v) :
    c = (i, v) ∨ c ∈ l := by
  induction l with
  | nil => simpa [putCell] using h
  | cons d l ih =>
    obtain ⟨k, u⟩ := d
    simp only [putCell] at h
    split at h
    · simpa using h
    · split at h
      · rcases List.mem_cons.1 h with h | h
        · exact .inl h
        · exact .inr (List.mem_cons_of_mem _ h)
      · rcases List.mem_cons.1 h with h | h
        · exact .inr (h ▸ List.mem_cons_self ..)
        · exact (ih h).imp_right (List.mem_cons_of_mem _)

theorem rising_putCell {l : List Host.Cell} (h : risingBool l = true) (i : Nat) (v : Byte) :
    risingBool (putCell l i v) = true := by
  induction l with
  | nil => rfl
  | cons c l ih =>
    obtain ⟨k, u⟩ := c
    obtain ⟨hk, hl⟩ := (rising_cons k u l).1 h
    simp only [putCell]
    split
    · rename_i hik
      exact (rising_cons _ _ _).2 ⟨fun c hc => by
        rcases List.mem_cons.1 hc with rfl | hc
        · exact hik
        · exact lt_trans hik (hk c hc), h⟩
    · split
      · rename_i hik; subst hik
        exact (rising_cons _ _ _).2 ⟨hk, hl⟩
      · refine (rising_cons _ _ _).2 ⟨fun c hc => ?_, ih hl⟩
        rcases mem_putCell hc with rfl | hc
        · show k < i
          omega
        · exact hk c hc

theorem mem_numberFrom {vs : List Byte} {a : Nat} {c : Host.Cell} (h : c ∈ numberFrom a vs) :
    a ≤ c.1 ∧ c.1 < a + vs.length ∧ c.2 ∈ vs := by
  induction vs generalizing a with
  | nil => simp [numberFrom] at h
  | cons v vs ih =>
    rcases List.mem_cons.1 h with rfl | h
    · simp
    · obtain ⟨h1, h2, h3⟩ := ih h
      refine ⟨by omega, ?_, List.mem_cons_of_mem _ h3⟩
      simp only [List.length_cons]; omega

theorem rising_filter {l : List Host.Cell} (h : risingBool l = true) (p : Host.Cell → Bool) :
    risingBool (l.filter p) = true := by
  induction l with
  | nil => rfl
  | cons c l ih =>
    obtain ⟨k, u⟩ := c
    obtain ⟨hk, hl⟩ := (rising_cons k u l).1 h
    rw [List.filter_cons]
    split
    · exact (rising_cons _ _ _).2 ⟨fun c hc => hk c (List.mem_of_mem_filter hc), ih hl⟩
    · exact ih hl

theorem rising_numberFrom_append (vs : List Byte) (a : Nat) {l : List Host.Cell} (h : risingBool l = true)
    (hl : ∀ c ∈ l, a + vs.length ≤ c.1) : risingBool (numberFrom a vs ++ l) = true := by
  induction vs generalizing a with
  | nil => simpa [numberFrom] using h
  | cons v vs ih =>
    rw [numberFrom, List.cons_append]
    refine (rising_cons _ _ _).2 ⟨fun c hc => ?_, ih (a + 1) fun c hc => ?_⟩
    · rcases List.mem_append.1 hc with hc | hc
      · have := (mem_numberFrom hc).1; omega
      · have := hl c hc; simp only [List.length_cons] at this; omega
    · have := hl c hc; simp only [List.length_cons] at this; omega

/-- The extents depend on MAXPIX alone (10_state.md R45). -/
theorem extent_congr {s t : State} (h : t.maxPixLess1 = s.maxPixLess1) (sp : Space) : extent t sp = extent s sp := by
  cases sp <;> simp only [extent, maxPix, h]

/-- What the canonical form of a space says. -/
theorem spaceWf_iff (s : State) (sp : Space) :
    spaceWf s sp = true ↔
      risingBool (cellsOf s.mem sp) = true ∧
        ∀ c ∈ cellsOf s.mem sp, c.1 < extent s sp ∧ fitCell sp c.2 = c.2 := by
  simp [spaceWf]

/-- The memory is canonical when each space is. -/
theorem memoryWf_iff (s : State) : memoryWf s = true ↔ ∀ sp, spaceWf s sp = true := by
  simp only [memoryWf, List.all_eq_true]
  exact ⟨fun h sp => h sp (by cases sp <;> simp [allSpaces]), fun h sp _ => h sp⟩

/-- The canonical form depends on the memory and MAXPIX alone. -/
theorem memoryWf_congr {s t : State} (hm : t.mem = s.mem) (hp : t.maxPixLess1 = s.maxPixLess1) :
    memoryWf t = memoryWf s := by
  have h : spaceWf t = spaceWf s := funext fun sp => by simp only [spaceWf, hm, extent_congr hp]
  rw [memoryWf, memoryWf, h]

/-- MemWrite inside the extent keeps the canonical form. -/
theorem memoryWf_writeCell {s : State} (h : memoryWf s = true) {sp : Space} {i : Nat} (hi : i < extent s sp)
    (v : Byte) : memoryWf (writeCell s sp i v) = true := by
  rw [memoryWf_iff] at h ⊢
  intro sp'
  have h' := (spaceWf_iff s sp').1 (h sp')
  rw [spaceWf_iff, writeCell_mem, cellsOf_setCells, extent_congr (writeCell_maxPixLess1 s sp i v)]
  by_cases e : sp' = sp
  · subst e
    simp only [if_true]
    refine ⟨rising_putCell h'.1 _ _, fun c hc => ?_⟩
    rcases mem_putCell hc with rfl | hc
    · exact ⟨hi, fitCell_fitCell _ _⟩
    · exact h'.2 c hc
  · simpa [e] using h'

/-- An engine that writes no more cells than the space has keeps the canonical form. -/
theorem memoryWf_writeFirst {s : State} (h : memoryWf s = true) {sp : Space} {vs : List Byte}
    (hv : vs.length ≤ extent s sp) : memoryWf (writeFirst s sp vs) = true := by
  rw [memoryWf_iff] at h ⊢
  intro sp'
  have h' := (spaceWf_iff s sp').1 (h sp')
  rw [spaceWf_iff, writeFirst_mem, cellsOf_setCells, extent_congr (writeFirst_maxPixLess1 s sp vs)]
  by_cases e : sp' = sp
  · subst e
    simp only [if_true]
    refine ⟨rising_numberFrom_append _ _ (rising_filter h'.1 _) fun c hc => ?_, fun c hc => ?_⟩
    · have := (List.mem_filter.1 hc).2
      simpa using this
    · rcases List.mem_append.1 hc with hc | hc
      · obtain ⟨-, h2, h3⟩ := mem_numberFrom hc
        obtain ⟨v, -, hv'⟩ := List.mem_map.1 h3
        refine ⟨?_, by rw [← hv', fitCell_fitCell]⟩
        simp only [List.length_map] at h2
        omega
      · exact h'.2 c (List.mem_of_mem_filter hc)
  · simpa [e] using h'

/-- Right after reset no cell is listed, so the memory is canonical. -/
theorem memoryWf_reset : memoryWf State.reset = true := by decide

/-- After a reset asserted by the host too. -/
theorem memoryWf_hardwareReset (a : HostAction) (s : State) : memoryWf (hardwareReset a s) = true := rfl

/-! ## Responses, faults, refusals and the port -/

/-- `respond(d)`: what the next state is (00_scope.md R14). -/
theorem respond_next {s t : State} {d : BitVec 24} (h : respond s d = .next t) :
    t = deliver s (responseWord false 0 d) := by
  simpa [respond] using h.symm

/-- `raise Fault(code)`: what the next state is (60_exceptions.md R263). -/
theorem raiseFault_next {s t : State} {code : FaultCode} {cmd : Word32} (h : raiseFault code cmd s = .next t) :
    t = deliver { s with err := true, errcode := code.bits, errcmd := cmd } (responseWord true code.bits 0) := by
  simpa [raiseFault] using h.symm

/-- `refuse`: what the next state is (60_exceptions.md R264). -/
theorem refuse_next {s t : State} (h : refuse s = .next t) : t = deliver s (responseWord true 0x7F 0) := by
  simpa [refuse] using h.symm

/-- A command that the latch refuses: either an error is latched and it is refused, or none is and it runs. -/
theorem unlessLatched_next {s t : State} {body : State → Result} (h : unlessLatched s body = .next t) :
    (s.err = true ∧ t = deliver s (responseWord true 0x7F 0)) ∨ (s.err = false ∧ body s = .next t) := by
  unfold unlessLatched at h
  split at h
  · exact .inl ⟨by assumption, refuse_next h⟩
  · rename_i he
    exact .inr ⟨by simpa using he, h⟩

@[simp] theorem unlessLatched_of_clear {s : State} {body : State → Result} (h : s.err = false) :
    unlessLatched s body = body s := by simp [unlessLatched, h]

@[simp] theorem unlessLatched_of_latched {s : State} {body : State → Result} (h : s.err = true) :
    unlessLatched s body = refuse s := by simp [unlessLatched, h]

/-- Taking the next action removes it from the port and changes nothing else. -/
theorem takeAction_some {s s' : State} {a : HostAction} (h : takeAction s = some (a, s')) :
    ∃ rest, s.portIn = a :: rest ∧ s' = { s with portIn := rest } := by
  unfold takeAction at h
  split at h
  · cases h
  · rename_i b rest hb
    simp only [Option.some.injEq, Prod.mk.injEq] at h
    exact ⟨rest, h.1 ▸ hb, h.2.symm⟩

/-- Every cell after a reset asserted by the host is unspecified anew (10_state.md R55). -/
theorem readCell_hardwareReset (a : HostAction) (s : State) (sp : Space) (i : Nat) :
    readCell (hardwareReset a s) sp i = fitCell sp (Config.freeCell (Config.fillAfter s a) sp i) := by
  cases sp <;> rfl

end Sys2Proof.Machine
end

