-- ==== Sys2Proof/Laws/Csr.lean ====
section
/-! SUPPORT. The control and status registers: addresses, and what writing one does to what each reads as. -/

namespace Sys2Proof.Machine

/-- Distinct registers have distinct addresses, and each is found at its own (10_state.md R42). -/
theorem ofAddr_addr (c : Csr) : Csr.ofAddr c.addr = some c := by
  cases c with
  | gsU i => fin_cases i <;> decide
  | gsV i => fin_cases i <;> decide
  | gsX i => fin_cases i <;> decide
  | gsY i => fin_cases i <;> decide
  | _ => decide

/-- The register at an address is the one that has this address. -/
theorem ofAddr_eq_some {a : BitVec 8} {c : Csr} : Csr.ofAddr a = some c ↔ c.addr = a := by
  constructor
  · intro h
    simpa using List.find?_some h
  · rintro rfl
    exact ofAddr_addr c

/-- An address is unassigned when no register has it. -/
theorem ofAddr_eq_none {a : BitVec 8} : Csr.ofAddr a = none ↔ ∀ c : Csr, c.addr ≠ a := by
  rw [Option.eq_none_iff_forall_ne_some]
  exact forall_congr' fun c => not_congr ofAddr_eq_some

/-- A coordinate of a point after one point is replaced. -/
theorem get_setPoint (s : State) (i j : Fin 4) (p : RefPoint) :
    (setPoint s i p).pts.get j = if j = i then p else s.pts.get j := by
  simp only [setPoint_pts, Vector.get_eq_getElem, Vector.getElem_set]
  by_cases h : i = j
  · subst h; simp
  · have : i.val ≠ j.val := fun e => h (Fin.ext e)
    simp [this, Ne.symm h]

/-- A read-write register reads back exactly what was written (10_state.md R36). -/
theorem csrValue_writeCsr_same (s : State) (c : Csr) (v : BitVec 16) (h : c.writable = true) :
    csrValue (writeCsr s c v) c = v.setWidth 24 := by
  cases c <;> first
    | rfl
    | exact absurd h Bool.false_ne_true
    | simp only [csrValue, writeCsr, get_setPoint, if_true]

/-- Writing a register changes what no other one reads as. -/
theorem csrValue_writeCsr_other (s : State) (c c' : Csr) (v : BitVec 16) (h : c' ≠ c) :
    csrValue (writeCsr s c v) c' = csrValue s c' := by
  cases c <;> cases c' <;> first
    | rfl
    | exact absurd rfl h
    | (simp only [csrValue, writeCsr, get_setPoint]
       split
       · rename_i e; subst e; first | rfl | exact absurd rfl h
       · rfl)

/-- Writing a register changes no state but the four groups of read-write registers. -/
theorem writeCsr_frame (s : State) (c : Csr) (v : BitVec 16) :
    writeCsr s c v =
      { s with
        img := (writeCsr s c v).img, gs := (writeCsr s c v).gs, pts := (writeCsr s c v).pts
        rs := (writeCsr s c v).rs } := by
  cases c <;> rfl

end Sys2Proof.Machine
end

