-- ==== Sys2Proof/Laws/Engines.lean ====
section
/-! SUPPORT. What the ends of the engines' commands and the correction of a block do, said once. -/

namespace Sys2Proof.Machine

/-! ## The ends of BINRUN, GSRUN and RSDEC -/

theorem endBinrun_next {s t : State} (h : endBinrun s = .next t) :
    t = deliver { s with binok := true } (responseWord false 0 0) := respond_next h

theorem failBinrun_next {s t : State} {code : FaultCode} {cmd : Word32} (h : failBinrun code cmd s = .next t) :
    t = deliver { s with binok := false, err := true, errcode := code.bits, errcmd := cmd }
      (responseWord true code.bits 0) := raiseFault_next h

theorem endGsrun_next {s t : State} (h : endGsrun s = .next t) :
    t = deliver { s with gsok := true } (responseWord false 0 0) := respond_next h

theorem failGsrun_next {s t : State} {code : FaultCode} {cmd : Word32} (h : failGsrun code cmd s = .next t) :
    t = deliver { s with gsok := false, err := true, errcode := code.bits, errcmd := cmd }
      (responseWord true code.bits 0) := raiseFault_next h

theorem endRsdec_next {s t : State} (h : endRsdec s = .next t) :
    t = deliver { s with rsok := true } (responseWord false 0 0) := respond_next h

theorem failRsdec_next {s t : State} {code : FaultCode} {cmd : Word32} (h : failRsdec code cmd s = .next t) :
    t = deliver { s with rsok := false, err := true, errcode := code.bits, errcmd := cmd }
      (responseWord true code.bits 0) := raiseFault_next h

/-! ## The correction of a block (43_rs_decoder.md R221) -/

theorem correctCells_cons (s : State) (f : Nat × Byte) (fixes : List (Nat × Byte)) :
    correctCells s (f :: fixes) = correctCells (writeCell s .cw f.1 (readCell s .cw f.1 ^^^ f.2)) fixes := rfl

/-- Correcting changes nothing but the memory. -/
theorem correctCells_frame (s : State) (fixes : List (Nat × Byte)) :
    correctCells s fixes = { s with mem := (correctCells s fixes).mem } := by
  induction fixes generalizing s with
  | nil => rfl
  | cons f fixes ih =>
    rw [correctCells_cons, ih]
    rfl

/-- Correcting changes no space but CW. -/
theorem readCell_correctCells_other (s : State) (fixes : List (Nat × Byte)) (sp : Space) (h : sp ≠ .cw) (i : Nat) :
    readCell (correctCells s fixes) sp i = readCell s sp i := by
  induction fixes generalizing s with
  | nil => rfl
  | cons f fixes ih =>
    rw [correctCells_cons, ih, readCell_writeCell]
    simp [h]

/-- Correcting at distinct positions XORs each with its magnitude and leaves the other cells of CW. -/
theorem readCell_correctCells (s : State) (fixes : List (Nat × Byte)) (hd : (fixes.map Prod.fst).Nodup) (i : Nat) :
    readCell (correctCells s fixes) .cw i =
      readCell s .cw i ^^^ ((fixes.find? (fun f => f.1 == i)).map Prod.snd).getD 0 := by
  induction fixes generalizing s with
  | nil => simp [correctCells]
  | cons f fixes ih =>
    obtain ⟨hf, hd⟩ := List.nodup_cons.mp hd
    rw [correctCells_cons, ih _ hd, readCell_writeCell]
    by_cases h : f.1 = i
    · subst h
      have : fixes.find? (fun g => g.1 == f.1) = none := by
        rw [List.find?_eq_none]
        intro g hg he
        exact hf (List.mem_map.mpr ⟨g, hg, by simpa using he⟩)
      simp [this, fitCell, Space.oneBit]
    · simp [h, Ne.symm h]

/-- Correcting positions inside CW keeps the canonical form. -/
theorem memoryWf_correctCells {s : State} (h : memoryWf s = true) {fixes : List (Nat × Byte)}
    (hf : ∀ f ∈ fixes, f.1 < 256) : memoryWf (correctCells s fixes) = true := by
  induction fixes generalizing s with
  | nil => exact h
  | cons f fixes ih =>
    rw [correctCells_cons]
    exact ih (memoryWf_writeCell h (hf f List.mem_cons_self) _) fun g hg => hf g (List.mem_cons_of_mem _ hg)

end Sys2Proof.Machine
end

