-- ==== Sys2Proof/Laws/Gfu.lean ====
section
/-! SUPPORT. What the two shared ends of the field commands do. -/

namespace Sys2Proof.Machine

/-- Writing a register and responding: what the next state is. -/
theorem writeAndRespond_next {s t : State} {rd : Reg} {v : Byte} (h : writeAndRespond s rd v = .next t) :
    t = deliver (writeReg s rd v) (responseWord false 0 0) := respond_next h

/-- A command with an undefined point: either its function has a value, which is written, or GFZero is raised. -/
theorem writeOrGfZero_next {s t : State} {cmd : Word32} {rd : Reg} {o : Option Byte}
    (h : writeOrGfZero s cmd rd o = .next t) :
    (∃ v, o = some v ∧ t = deliver (writeReg s rd v) (responseWord false 0 0)) ∨
      (o = none ∧
        t = deliver { s with err := true, errcode := FaultCode.gfZero.bits, errcmd := cmd }
          (responseWord true FaultCode.gfZero.bits 0)) := by
  cases o with
  | some v => exact .inl ⟨v, rfl, writeAndRespond_next h⟩
  | none => exact .inr ⟨rfl, raiseFault_next h⟩

end Sys2Proof.Machine
end

