-- ==== Sys2Proof/Laws/PerInstr.lean ====
section
/-! SUPPORT. Facts about every command as syntax, one lemma per constructor of Instr. -/

namespace Sys2Proof.Laws.EncodeFitsTable

/-- The word of a command lies in the row of the opcode map that has its mnemonic (30_encoding.md R94): under the
row's mask it is the row's match, whatever its operands. -/
def Statement (i : Instr) : Prop :=
  ∃ row ∈ commandTable, row.mnemonic = i.mnemonic ∧ encode i &&& row.mask = row.pattern

/-- A field is not seen through a mask that leaves its bits out. -/
theorem place_and {n : Nat} (v : BitVec n) (lo : Nat) (m : Word32)
    (h : (BitVec.allOnes n).setWidth 32 <<< lo &&& m = 0) : place v lo &&& m = 0 := by
  ext i hi
  have h' := congrArg (fun x => x.getLsbD i) h
  simp only [place, BitVec.getElem_and, BitVec.getElem_shiftLeft, BitVec.getLsbD_and, BitVec.getLsbD_shiftLeft,
    BitVec.getLsbD_setWidth, BitVec.getLsbD_allOnes, BitVec.getElem_setWidth, hi] at h' ⊢
  by_cases hn : i - lo < n
  · simp only [hn, decide_true, Bool.true_and, Bool.and_true] at h'
    simp_all
    exact fun hl _ => h' hl (by omega)
  · simp [BitVec.getLsbD_of_ge v (i - lo) (by omega)]

/-- A mask of a word put together of two parts. -/
theorem or_and (a b m : Word32) : (a ||| b) &&& m = a &&& m ||| b &&& m := by
  ext i hi
  simp [Bool.and_or_distrib_right]

theorem nop : Statement .nop :=
  ⟨⟨"NOP", 0xFFFFFFFF, 0x00000000⟩, by simp [commandTable], rfl, by decide⟩

theorem clrerr : Statement .clrerr :=
  ⟨⟨"CLRERR", 0xFFFFFFFF, 0x01000000⟩, by simp [commandTable], rfl, by decide⟩

theorem csrrd (csr : BitVec 8) : Statement (.csrrd csr) := by
  exact ⟨⟨"CSRRD", 0xFF00FFFF, 0x02000000⟩, by simp [commandTable], rfl, by
    simp (disch := decide) only [encode, or_and, place_and]; rfl⟩

theorem csrwr (csr : BitVec 8) (imm16 : BitVec 16) : Statement (.csrwr csr imm16) := by
  exact ⟨⟨"CSRWR", 0xFF000000, 0x03000000⟩, by simp [commandTable], rfl, by
    simp (disch := decide) only [encode, or_and, place_and]; rfl⟩

theorem setptr (imm24 : BitVec 24) : Statement (.setptr imm24) := by
  exact ⟨⟨"SETPTR", 0xFF000000, 0x04000000⟩, by simp [commandTable], rfl, by
    simp (disch := decide) only [encode, or_and, place_and]; rfl⟩

theorem ld (space : Space) : Statement (.ld space) := by
  exact ⟨⟨"LD", 0xFF0FFFFF, 0x05000000⟩, by simp [commandTable], rfl, by
    simp (disch := decide) only [encode, or_and, place_and]; rfl⟩

theorem st (space : Space) (imm8 : Byte) : Statement (.st space imm8) := by
  exact ⟨⟨"ST", 0xFF0FFF00, 0x06000000⟩, by simp [commandTable], rfl, by
    simp (disch := decide) only [encode, or_and, place_and]; rfl⟩

theorem gfli (rd : Reg) (imm8 : Byte) : Statement (.gfli rd imm8) := by
  exact ⟨⟨"GFLI", 0xFF0FFF00, 0x10000000⟩, by simp [commandTable], rfl, by
    simp (disch := decide) only [encode, or_and, place_and]; rfl⟩

theorem gfmv (rd ra : Reg) : Statement (.gfmv rd ra) := by
  exact ⟨⟨"GFMV", 0xFF00FFFF, 0x11000000⟩, by simp [commandTable], rfl, by
    simp (disch := decide) only [encode, or_and, place_and]; rfl⟩

theorem gfrd (ra : Reg) : Statement (.gfrd ra) := by
  exact ⟨⟨"GFRD", 0xFFF0FFFF, 0x12000000⟩, by simp [commandTable], rfl, by
    simp (disch := decide) only [encode, or_and, place_and]; rfl⟩

theorem gfadd (rd ra rb : Reg) : Statement (.gfadd rd ra rb) := by
  exact ⟨⟨"GFADD", 0xFF000FFF, 0x18000000⟩, by simp [commandTable], rfl, by
    simp (disch := decide) only [encode, or_and, place_and]; rfl⟩

theorem gfmul (rd ra rb : Reg) : Statement (.gfmul rd ra rb) := by
  exact ⟨⟨"GFMUL", 0xFF000FFF, 0x19000000⟩, by simp [commandTable], rfl, by
    simp (disch := decide) only [encode, or_and, place_and]; rfl⟩

theorem gfdiv (rd ra rb : Reg) : Statement (.gfdiv rd ra rb) := by
  exact ⟨⟨"GFDIV", 0xFF000FFF, 0x1A000000⟩, by simp [commandTable], rfl, by
    simp (disch := decide) only [encode, or_and, place_and]; rfl⟩

theorem gfinv (rd ra : Reg) : Statement (.gfinv rd ra) := by
  exact ⟨⟨"GFINV", 0xFF00FFFF, 0x1B000000⟩, by simp [commandTable], rfl, by
    simp (disch := decide) only [encode, or_and, place_and]; rfl⟩

theorem gfexp (rd ra : Reg) : Statement (.gfexp rd ra) := by
  exact ⟨⟨"GFEXP", 0xFF00FFFF, 0x1C000000⟩, by simp [commandTable], rfl, by
    simp (disch := decide) only [encode, or_and, place_and]; rfl⟩

theorem gflog (rd ra : Reg) : Statement (.gflog rd ra) := by
  exact ⟨⟨"GFLOG", 0xFF00FFFF, 0x1D000000⟩, by simp [commandTable], rfl, by
    simp (disch := decide) only [encode, or_and, place_and]; rfl⟩

theorem binrun : Statement .binrun :=
  ⟨⟨"BINRUN", 0xFFFFFFFF, 0x20000000⟩, by simp [commandTable], rfl, by decide⟩

theorem gsrun : Statement .gsrun :=
  ⟨⟨"GSRUN", 0xFFFFFFFF, 0x28000000⟩, by simp [commandTable], rfl, by decide⟩

theorem gsmap (row col : BitVec 8) : Statement (.gsmap row col) := by
  exact ⟨⟨"GSMAP", 0xFFFF0000, 0x29000000⟩, by simp [commandTable], rfl, by
    simp (disch := decide) only [encode, or_and, place_and]; rfl⟩

theorem rsdec : Statement .rsdec :=
  ⟨⟨"RSDEC", 0xFFFFFFFF, 0x30000000⟩, by simp [commandTable], rfl, by decide⟩

end Sys2Proof.Laws.EncodeFitsTable
end

