-- ==== Sys2Proof/Tests/Slice0.lean ====
section
/-! SUPPORT. Small tests whose expected values are the spec's own (95_test_vectors.md and the examples of the rules),
and for every statement with hypotheses a witness that meets them, at the boundaries of its clauses. -/

set_option Elab.async false

namespace Sys2Proof.Tests

open Sys2Proof Sys2Proof.Machine

/-! ## Well-formedness: the one check refuses ill-formed terms (30_encoding.md R96 (d)) -/

theorem test_wellFormed_refuses_two_in_one_bit_cells :
    ¬ WellFormed (.st .bm 2) ∧ ¬ WellFormed (.st .mm 2) ∧ ¬ WellFormed (.st .bm 0xFF) := by decide

theorem test_wellFormed_accepts :
    WellFormed (.st .bm 1) ∧ WellFormed (.st .mm 0) ∧ WellFormed (.st .cw 0xFF) ∧ WellFormed (.ld .thr) := by decide

/-! ## Decoding: each command's word written out from 30_encoding.md R91, R94 -/

/-- The words are the examples of 44_system_commands.md R241 to R247 and of 95_test_vectors.md Y3, Y4, Y5. -/
theorem test_decode_system :
    decode 0b00000000000000000000000000000000 = .ok .nop ∧
    decode 0b00000001000000000000000000000000 = .ok .clrerr ∧
    decode 0b00000010000100110000000000000000 = .ok (.csrrd 0x13) ∧
    decode 0b00000011010000010000000000001010 = .ok (.csrwr 0x41 10) ∧
    decode 0b00000100000000011111111111111111 = .ok (.setptr 0x01FFFF) ∧
    decode 0b00000101001000000000000000000000 = .ok (.ld .bm) ∧
    decode 0b00000110000000000000000000010001 = .ok (.st .cw 0x11) ∧
    decode 0b00000110001100000000000000000001 = .ok (.st .mm 1) := by decide

/-- The words are the examples of 40_gf_arithmetic.md R132 to R140 and of 95_test_vectors.md F4, P1. -/
theorem test_decode_field :
    decode 0b00010000111100000000000010101011 = .ok (.gfli 15 0xAB) ∧
    decode 0b00010001001000010000000000000000 = .ok (.gfmv 2 1) ∧
    decode 0b00010010000000110000000000000000 = .ok (.gfrd 3) ∧
    decode 0b00011000001100010010000000000000 = .ok (.gfadd 3 1 2) ∧
    decode 0b00011001011001010100000000000000 = .ok (.gfmul 6 5 4) ∧
    decode 0b00011010000011110001000000000000 = .ok (.gfdiv 0 15 1) ∧
    decode 0b00011011001000010000000000000000 = .ok (.gfinv 2 1) ∧
    decode 0b00011100101010000000000000000000 = .ok (.gfexp 10 8) ∧
    decode 0b00011101100000010000000000000000 = .ok (.gflog 8 1) := by decide

/-- 41_binarizer.md R161, 42_grid_sampler.md R191, 95_test_vectors.md G1, 43_rs_decoder.md R210. -/
theorem test_decode_engines :
    decode 0b00100000000000000000000000000000 = .ok .binrun ∧
    decode 0b00101000000000000000000000000000 = .ok .gsrun ∧
    decode 0b00101001000000000000001000000001 = .ok (.gsmap 2 1) ∧
    decode 0b00110000000000000000000000000000 = .ok .rsdec := by decide

/-- 95_test_vectors.md Y7, Y5 and Y6: one word for each way to be illegal, and more. -/
theorem test_decode_illegal :
    decode 0x07000000 = .error .unassignedOpcode ∧ decode 0xFF000000 = .error .unassignedOpcode ∧
    decode 0x10100100 = .error .mustBeZeroBit ∧ decode 0x12100000 = .error .mustBeZeroBit ∧
    decode 0x28800000 = .error .mustBeZeroBit ∧ decode 0x06000100 = .error .mustBeZeroBit ∧
    decode 0x05900000 = .error .noSuchSpace ∧ decode 0x06F00000 = .error .noSuchSpace ∧
    decode 0x06200002 = .error .notOneBit ∧ decode 0x06300002 = .error .notOneBit := by decide

theorem test_decodeTableWord :
    decodeTableWord 32 0x29000201 = some (.gsmap 2 1) ∧ decodeTableWord 32 0x05900000 = none := by decide

/-! ## Helpers -/

/-- The next state, if there is one. -/
def nextOf : Result → Option State
  | .next t => some t
  | .fault _ => none
  | .refused _ => none

theorem eq_next_of_nextOf {o : Result} {t : State} (h : nextOf o = some t) : o = .next t := by
  cases o with
  | next s => exact congrArg _ (Option.some.inj h)
  | fault r => cases h
  | refused r => cases h

/-- The state after the unit runs the word, if it goes on. -/
def stepOn (w : Word32) (s : State) : Option State := nextOf (step (s.withFetchWord 32 w.toNat))

/-- The state after reset with three registers set. -/
def regState (g1 g2 g3 : Byte) : State := writeReg (writeReg (writeReg State.reset 1 g1) 2 g2) 3 g3

/-- The state with an error latched, as after `GFINV g1, g0` (44_system_commands.md R242). -/
def latchedState : State := { State.reset with err := true, errcode := 0x04, errcmd := 0x1B100000 }

/-- PTR and the first cells of a space set. -/
def cellState (sp : Space) (p : BitVec 24) (vs : List Byte) : State :=
  { writeFirst State.reset sp vs with ptr := p }

/-- An image in PX. -/
def imageState (w h fmt k : BitVec 16) (px : List Byte) : State :=
  writeFirst { State.reset with img := ⟨w, h, fmt, k⟩ } .px px

/-- Three points (0, 0), (2, 0), (0, 2) of the grid, in half modules, mapped to (x, 0), (x + a, 0), (x, a), in
sixteenths, in a dark bitmap of 4 by 4 (95_test_vectors.md G7). -/
def gridState (size : BitVec 16) (x a : BitVec 16) : State :=
  writeFirst
    { State.reset with
      img := ⟨4, 4, 0, 4⟩
      gs := ⟨size, 3, 0, 0, 0, 0⟩
      pts := #v[⟨0, 0, x, 0⟩, ⟨2, 0, x + a, 0⟩, ⟨0, 2, x, a⟩, ⟨0, 0, 0, 0⟩] }
    .bm (List.replicate 16 1)

/-- A block in CW. -/
def blockState (k e : BitVec 16) (cw : List Byte) : State :=
  writeFirst { State.reset with rs := ⟨k, e, 0, 0⟩ } .cw cw

/-- A command word at the port of a state. -/
def atPort (w : Word32) (s : State) : State := { s with portIn := [.command w] }

/-! ## One step of each command -/

theorem test_nop : (stepOn 0x00000000 State.reset).map (fun t => t.rspOut) = some [0x00000000] := by decide +kernel

/-- 44_system_commands.md R241: refused while an error is latched. -/
theorem test_nop_refused :
    (stepOn 0x00000000 latchedState).map (fun t => (t.rspOut, t.errcmd)) = some ([0xFF000000], 0x1B100000) := by
  decide +kernel

/-- 44_system_commands.md R242, its example. -/
theorem test_clrerr :
    (stepOn 0x01000000 latchedState).map (fun t => (t.rspOut, t.err, t.errcode, t.errcmd)) =
      some ([0], false, 0, 0) := by decide +kernel

/-- 44_system_commands.md R243, its examples; the second while an error is latched. -/
theorem test_csrrd :
    (stepOn 0x02130000 State.reset).map (fun t => t.rspOut) = some [0x00000004] ∧
    (stepOn 0x02040000 latchedState).map (fun t => t.rspOut) = some [0x00001B10] := by decide +kernel

/-- 95_test_vectors.md Y3: an unassigned address. -/
theorem test_csrrd_bad :
    (stepOn 0x02080000 State.reset).map (fun t => (t.rspOut, t.errcode, t.errcmd)) =
      some ([0x82000000], 0x02, 0x02080000) := by decide +kernel

/-- 95_test_vectors.md Y2: the value is stored unchecked. -/
theorem test_csrwr :
    (stepOn 0x0310FFFF State.reset).map (fun t => (t.rspOut, t.img.w)) = some ([0], 0xFFFF) := by decide +kernel

/-- 95_test_vectors.md Y3: PTR is read-only to CSRWR. -/
theorem test_csrwr_bad :
    (stepOn 0x03050007 State.reset).map (fun t => (t.rspOut, t.ptr)) = some ([0x82000000], 0) := by decide +kernel

theorem test_setptr :
    (stepOn 0x0401FFFF State.reset).map (fun t => (t.rspOut, t.ptr)) = some ([0], 0x01FFFF) := by decide +kernel

/-- 44_system_commands.md R246, its example. -/
theorem test_ld :
    (stepOn 0x05000000 (cellState .cw 2 [0x40, 0x54, 0x84])).map (fun t => (t.rspOut, t.ptr)) =
      some ([0x00000084], 3) := by decide +kernel

theorem test_ld_beyond :
    (stepOn 0x05000000 (cellState .cw 256 [])).map (fun t => (t.rspOut, t.ptr)) = some ([0x83000000], 256) := by
  decide +kernel

/-- 95_test_vectors.md Y4: the last cell of CW, and PTR after it. -/
theorem test_st :
    (stepOn 0x06000011 (cellState .cw 255 [])).map (fun t => (t.rspOut, t.ptr, readCell t .cw 255)) =
      some ([0], 256, 0x11) := by decide +kernel

/-- 95_test_vectors.md Y5: the order of the checks. -/
theorem test_st_bad :
    (stepOn 0x06300002 State.reset).map (fun t => t.rspOut) = some [0x81000000] ∧
    (stepOn 0x06300001 State.reset).map (fun t => t.rspOut) = some [0x83000000] := by decide +kernel

theorem test_gfli :
    (stepOn 0x10100053 State.reset).map (fun t => (t.rspOut, readReg t 1)) = some ([0], 0x53) := by decide +kernel

theorem test_gfmv :
    (stepOn 0x11210000 (regState 0x53 0 0)).map (fun t => (readReg t 1, readReg t 2)) = some (0x53, 0x53) := by
  decide +kernel

theorem test_gfrd :
    (stepOn 0x12030000 (regState 0 0 0x8F)).map (fun t => t.rspOut) = some [0x0000008F] := by decide +kernel

/-- 95_test_vectors.md F1, the row of 53 and CA: the sum, the product and the quotient. -/
theorem test_gfadd :
    (stepOn 0x18312000 (regState 0x53 0xCA 0)).map (fun t => readReg t 3) = some 0x99 := by decide +kernel

theorem test_gfmul :
    (stepOn 0x19312000 (regState 0x53 0xCA 0)).map (fun t => readReg t 3) = some 0x8F := by decide +kernel

theorem test_gfdiv :
    (stepOn 0x1A312000 (regState 0x53 0xCA 0)).map (fun t => readReg t 3) = some 0x6D := by decide +kernel

/-- 95_test_vectors.md F4: a faulting GFDIV leaves its destination. -/
theorem test_gfdiv_by_zero :
    (stepOn 0x1A312000 (regState 0x53 0 0xAB)).map (fun t => (t.rspOut, readReg t 3, t.errcmd)) =
      some ([0x84000000], 0xAB, 0x1A312000) := by decide +kernel

/-- 95_test_vectors.md F2, the row of 53. -/
theorem test_gfinv :
    (stepOn 0x1B310000 (regState 0x53 0 0)).map (fun t => readReg t 3) = some 0x8C := by decide +kernel

theorem test_gfexp :
    (stepOn 0x1C310000 (regState 0x53 0 0)).map (fun t => readReg t 3) = some 0xBB ∧
    (stepOn 0x1C310000 (regState 0xFF 0 0)).map (fun t => readReg t 3) = some 0x01 := by decide +kernel

theorem test_gflog :
    (stepOn 0x1D310000 (regState 0x53 0 0)).map (fun t => readReg t 3) = some 0xCE := by decide +kernel

/-- 95_test_vectors.md B1. -/
theorem test_binrun :
    (stepOn 0x20000000
        (imageState 4 4 0 2 [10, 200, 50, 60, 220, 30, 70, 80, 100, 100, 0, 255, 100, 100, 255, 1])).map
      (fun t => (t.rspOut, t.binok, (List.range 5).map (readCell t .thr), (List.range 16).map (readCell t .bm))) =
      some ([0], true, [0x73, 0x41, 0x64, 0x7F, 0], [1, 0, 1, 1, 0, 1, 0, 0, 0, 0, 1, 0, 0, 0, 0, 1]) := by
  decide +kernel

/-- 95_test_vectors.md B3: weighted channels, alpha ignored. -/
theorem test_binrun_rgba :
    (stepOn 0x20000000
        (imageState 2 2 1 1 [255, 255, 255, 255, 0, 0, 0, 255, 255, 0, 0, 0, 10, 20, 30, 40])).map
      (fun t => (readCell t .thr 0, (List.range 4).map (readCell t .bm))) = some (127, [0, 1, 1, 1]) := by
  decide +kernel

/-- 95_test_vectors.md G7: a centre on a pixel's corner, and one on the image's. -/
theorem test_gsmap :
    (stepOn 0x29000000 (gridState 1 0 64)).map (fun t => (t.rspOut, t.gs.mapx, t.gs.mapy)) =
      some ([0x00002002], 2, 2) ∧
    (stepOn 0x29000000 (gridState 1 0 128)).map (fun t => t.rspOut) = some [0x91000000] := by decide +kernel

/-- 95_test_vectors.md G5: a negative coordinate is floored. -/
theorem test_gsmap_negative :
    (stepOn 0x29000000
        { State.reset with
          img := ⟨11, 11, 0, 4⟩, gs := ⟨3, 3, 0, 0, 7, 7⟩
          pts := #v[⟨3, 1, 8, 40⟩, ⟨5, 1, 40, 40⟩, ⟨3, 5, 8, 136⟩, ⟨0, 0, 0, 0⟩] }).map
      (fun t => (t.rspOut, t.gs.failc, t.gs.failr, t.gs.mapx)) = some ([0x91000000], 0, 0, 0) := by decide +kernel

/-- The pixel of 95_test_vectors.md G7 sampled. -/
theorem test_gsrun :
    (stepOn 0x28000000 (gridState 1 0 64)).map (fun t => (t.rspOut, t.gsok, readCell t .mm 0)) =
      some ([0], true, 1) := by decide +kernel

/-- 95_test_vectors.md G8: a centre that maps to infinity; the modules before it are sampled. -/
theorem test_gsrun_partial :
    (stepOn 0x28000000
        (writeFirst
          { State.reset with
            img := ⟨16, 16, 0, 4⟩, gs := ⟨2, 4, 0, 0, 0, 0⟩
            pts := #v[⟨0, 0, 94, 177⟩, ⟨4, 0, 90, 73⟩, ⟨0, 4, 157, 40⟩, ⟨4, 4, 58, 93⟩] }
          .bm (List.replicate 256 1))).map
      (fun t => (t.rspOut, t.gs.failc, t.gs.failr, t.mem.mm)) = some ([0x91000000], 0, 1, [(0, 1), (1, 1)]) := by
  decide +kernel

/-- 95_test_vectors.md S6. -/
theorem test_rsdec :
    (stepOn 0x30000000 (blockState 3 4 [0x01, 0x57, 0x03, 0x8B, 0xF3, 0x8E, 0xF6])).map
      (fun t =>
        (t.rspOut, t.rs.l, t.rs.nerr,
          (List.range 7).map (readCell t .cw) ++ (List.range 5).map (readCell t .syn) ++
            (List.range 3).map (readCell t .lam) ++ [readCell t .epos 0, readCell t .emag 0])) =
      some ([0], 1, 1,
        [0x01, 0x02, 0x03, 0x8B, 0xF3, 0x8E, 0xF6] ++ [0x55, 0x72, 0xE6, 0x91, 0x00] ++ [0x01, 0x20, 0x00] ++
          [0x01, 0x55]) := by decide +kernel

/-- 95_test_vectors.md S11: two errors are too many for E = 3. -/
theorem test_rsdec_uncorrectable :
    (stepOn 0x30000000 (blockState 2 3 [0xAC, 0xCD, 0xEA, 0x3D, 0xA1])).map
      (fun t => (t.rspOut, t.rs.l, (List.range 4).map (readCell t .lam), (List.range 5).map (readCell t .cw))) =
      some ([0x92000000], 2, [0x01, 0xE4, 0xA8, 0], [0xAC, 0xCD, 0xEA, 0x3D, 0xA1]) := by decide +kernel

/-- 40_gf_arithmetic.md R130: the first rows of EXP and of INV. -/
theorem test_tables :
    (List.range 16).map gfExp =
      [0x01, 0x02, 0x04, 0x08, 0x10, 0x20, 0x40, 0x80, 0x1D, 0x3A, 0x74, 0xE8, 0xCD, 0x87, 0x13, 0x26] ∧
    (List.range 8).map (fun a => gfInv (BitVec.ofNat 8 a)) =
      [none, some 0x01, some 0x8E, some 0xF4, some 0x47, some 0xA7, some 0x7A, some 0xBA] ∧
    gfExp 254 = 0x8E ∧ gfExp 255 = 0x01 ∧ gfLog 0xFF = some 0xAF := by decide +kernel

/-- 70_reset_and_hazards.md R300: a reset while RSDEC is in flight gives no response and restores CELLS. -/
theorem test_reset_in_flight :
    (nextOf (step { latchedState with
      img := ⟨9, 9, 9, 9⟩, portIn := [.resetInFlight 0x30000000, .command 0] })).map
      (fun t => (t.err, t.img, t.rspOut, t.portIn)) = some (false, ⟨0, 0, 0, 4⟩, [], [.command 0]) := by decide +kernel

/-! ## Witnesses: encoding and steps -/

theorem witness_DecodeOfEncodeIsTheCommand : WellFormed (.st .bm 1) ∧ WellFormed (.gfdiv 15 0 15) := by decide

theorem witness_LegalWordIsTheWordOfItsCommand :
    decode 0x06300001 = .ok (.st .mm 1) ∧ decode 0x04FFFFFF = .ok (.setptr 0xFFFFFF) := by decide

theorem witness_WordMatchesItsTableRow :
    (∃ row ∈ commandTable, (0x05800000 : Word32) &&& row.mask = row.pattern ∧ row.mnemonic = "LD") ∧
    fieldSpace 0x05800000 = 8 := by decide

/-- One word for each way to be illegal, at the edges of the unassigned opcodes. -/
theorem witness_IllegalWordTakesTheFault :
    (∀ p ∈ [((0x07000000 : Word32), DecodeError.unassignedOpcode), (0x31000000, .unassignedOpcode),
        (0x18000001, .mustBeZeroBit), (0x05900000, .noSuchSpace), (0x06200002, .notOneBit)],
      decode p.1 = .error p.2 ∧ (atPort p.1 State.reset).portIn = [.command p.1]) ∧ State.reset.err = false := by
  decide +kernel

theorem witness_StepRunsTheDecodedCommand :
    (atPort 0x30000000 State.reset).portIn = [.command 0x30000000] ∧ decode 0x30000000 = .ok .rsdec := by
  decide +kernel

/-- An error latched and any word at the port; reads of the last assigned register and of the first address after. -/
theorem witness_LatchRefusesEveryOtherWord :
    (∀ w, (atPort w latchedState).portIn = [.command w] ∧ (atPort w latchedState).err = true) ∧
    (0x02430000 : Word32) &&& 0xFF00FFFF = 0x02000000 ∧ (0x02440000 : Word32) &&& 0xFF00FFFF = 0x02000000 :=
  ⟨fun _ => ⟨rfl, rfl⟩, by decide, by decide⟩

theorem witness_assigned_csr : AssignedCsr (fieldCsr 0x02430000) := by unfold AssignedCsr; decide

theorem witness_unassigned_csr : ¬ AssignedCsr (fieldCsr 0x02440000) := by unfold AssignedCsr; decide +kernel

theorem witness_EveryStepAnswersOnce :
    State.reset.portIn = [] ∧ (atPort 0x00000000 State.reset).portIn = [.command 0x00000000] ∧
    { State.reset with portIn := [.resetInFlight 0x30000000] }.portIn = [HostAction.resetInFlight 0x30000000] ∧
    ∀ w, HostAction.resetInFlight 0x30000000 ≠ .command w := by
  refine ⟨rfl, rfl, rfl, fun w => ?_⟩
  exact fun h => by cases h

/-- A success, a fault and a refusal. -/
theorem witness_ResponseTellsTheOutcome :
    (∃ t, step (atPort 0x00000000 State.reset) = .next t ∧ t.rspOut = [0]) ∧
    (∃ t, step (atPort 0x07000000 State.reset) = .next t ∧ t.rspOut = [0x81000000]) ∧
    ∃ t, step (atPort 0x00000000 latchedState) = .next t ∧ t.rspOut = [0xFF000000] :=
  ⟨⟨_, rfl, by decide +kernel⟩, ⟨_, rfl, by decide +kernel⟩, ⟨_, rfl, by decide +kernel⟩⟩

/-- Cells at the ends of their spaces, a latched error, results at their bounds, and CLRERR at the port. -/
def boundaryState : State :=
  { atPort 0x01000000 latchedState with
    mem := { Memory.unwritten with cw := [(0, 1), (255, 0xFF)], bm := [(65535, 1)], mm := [(31328, 1)] }
    gs := ⟨0, 4, 4094, 4094, 176, 176⟩, rs := ⟨0, 0, 254, 127⟩ }

theorem boundaryState_inv : Inv boundaryState where
  canonical := by decide +kernel
  latch := ⟨fun h => absurd h (by decide), fun _ => ⟨.gfZero, rfl⟩⟩
  results := by unfold ResultsWf; decide +kernel

theorem witness_StepKeepsTheInvariant : Inv boundaryState ∧ ∃ t, step boundaryState = .next t ∧ t.err = false :=
  ⟨boundaryState_inv, _, rfl, rfl⟩

theorem witness_ConstantsReadTheSame : ∃ t, step (atPort 0x04000001 State.reset) = .next t ∧ t.ptr = 1 :=
  ⟨_, rfl, by decide +kernel⟩

theorem witness_HostResetRestoresTheRegisters :
    { latchedState with portIn := [.reset] }.portIn = [HostAction.reset] ∧ ∀ w, HostAction.reset ≠ .command w :=
  ⟨rfl, fun _ h => by cases h⟩

/-! ## Witnesses: the field and its commands -/

theorem witness_FieldLawsHold : (0xFF : Byte) ≠ 0x00 ∧ gfMul 0x00 0x53 = 0x00 ∧ (254 : Nat) < 255 := by decide +kernel

theorem witness_LogIsTheExponent : (0x8E : Byte) ≠ 0x00 ∧ powAlpha 254 = 0x8E := by decide +kernel

theorem witness_TablesGiveProductInverseAndQuotient :
    gfLog 0x8E = some 254 ∧ gfLog 0x01 = some 0 ∧ gfInv 0x53 = some 0x8C ∧ gfDiv 0x53 0xCA = some 0x6D := by
  decide +kernel

/-- No error latched, and both a zero and a non-zero operand: for every statement about a field command. -/
theorem witness_field_commands :
    (regState 0x53 0xCA 0x00).err = false ∧ readReg (regState 0x53 0xCA 0x00) 2 ≠ 0x00 ∧
    readReg (regState 0x53 0xCA 0x00) 3 = 0x00 ∧ readReg (regState 0x01 0xCA 0x00) 1 = 0x01 := by decide +kernel

/-! ## Witnesses: system commands -/

theorem witness_NopOnlyResponds : State.reset.err = false ∧ latchedState.err = true := by decide

/-- The first unassigned address after each block. -/
theorem witness_CsrrdReadsAssignedRegisters :
    (∀ c : Csr, c.addr ≠ 0x08) ∧ (∀ c : Csr, c.addr ≠ 0x44) ∧ State.reset.err = false ∧ latchedState.err = true := by
  refine ⟨fun c => ?_, fun c => ?_, rfl, rfl⟩ <;>
    · cases c with
      | gsU i => fin_cases i <;> decide
      | gsV i => fin_cases i <;> decide
      | gsX i => fin_cases i <;> decide
      | gsY i => fin_cases i <;> decide
      | _ => decide

theorem witness_CsrwrStoresTheValue :
    State.reset.err = false ∧ Csr.writable .rsE = true ∧ Csr.writable (.gsY 3) = true ∧ ¬ ReadWriteCsr 0x42 ∧
    ¬ ReadWriteCsr 0x14 ∧ ¬ ReadWriteCsr 0x05 := by
  unfold ReadWriteCsr
  decide

/-- The last cell and the first index beyond it. -/
theorem witness_LdReturnsTheCellAtPtr :
    (cellState .cw 255 []).err = false ∧ (cellState .cw 255 []).ptr.toNat < extent (cellState .cw 255 []) .cw ∧
    extent (cellState .cw 256 []) .cw ≤ (cellState .cw 256 []).ptr.toNat := by decide +kernel

/-- The three ways of ST: a value of two bits, a read-only space or the index beyond the end, the last cell. -/
theorem witness_StWritesTheCellAtPtr :
    State.reset.err = false ∧ (2 : Nat) ≤ (2 : Byte).toNat ∧
    extent (cellState .bm 65536 []) .bm ≤ (cellState .bm 65536 []).ptr.toNat ∧
    ¬ extent (cellState .bm 65535 []) .bm ≤ (cellState .bm 65535 []).ptr.toNat ∧ ¬ 2 ≤ (1 : Byte).toNat := by
  decide +kernel

/-! ## Witnesses: the binarizer -/

/-- 95_test_vectors.md B6: too large by the width and by one pixel row; bad by CELLS = 17, by W < CELLS and by W = 0. -/
theorem witness_BinrunChecksItsParameters :
    (∀ s ∈ [imageState 4096 1 0 1 [], imageState 257 256 0 4 []], s.err = false ∧ TooLarge s) ∧
    ∀ s ∈ [imageState 32 32 0 17 [], imageState 3 8 0 4 [], imageState 0 8 0 4 [], imageState 8 8 2 4 []],
      s.err = false ∧ ¬ TooLarge s ∧ BinrunBad s := by
  unfold TooLarge BinrunBad
  decide +kernel

/-- The smallest image, and the largest of 95_test_vectors.md B6. -/
theorem witness_BinrunBinarizesTheImage :
    ∀ s ∈ [imageState 1 1 0 1 [0], imageState 256 256 0 4 [], imageState 4095 16 1 16 []],
      s.err = false ∧ ¬ TooLarge s ∧ ¬ BinrunBad s := by
  unfold TooLarge BinrunBad
  decide +kernel

theorem witness_PartitionCoversTheImage : (1 ≤ 4 ∧ 4 ≤ 8 ∧ 4 ≤ 4) ∧ (0 < 8 ∧ 3 < 4) ∧ 4 ∣ 8 := by decide

/-! ## Witnesses: the grid sampler -/

/-- 95_test_vectors.md G6 and R185: too large; bad by a size of 0 and of 178 and by collinear points; row = size. -/
theorem witness_SamplerChecksItsParameters :
    TooLarge { gridState 0 0 64 with img := ⟨4096, 4, 0, 4⟩ } ∧
    (∀ s ∈ [gridState 0 0 64, gridState 178 0 64, gridState 1 0 0],
      s.err = false ∧ ¬ TooLarge s ∧ SamplerBad s) ∧
    (gridState 1 0 64).err = false ∧ ¬ TooLarge (gridState 1 0 64) ∧ ¬ SamplerBad (gridState 1 0 64) ∧
    (gridState 1 0 64).gs.size.toNat ≤ (1 : BitVec 8).toNat := by
  unfold TooLarge SamplerBad ThreeCollinear
  decide +kernel

/-- The centres of the modules (0, 0) and (1, 0) of `gridState 2 0 64`: three coordinates each. -/
theorem gridState_coordinates :
    imageX (transform (gridState 2 0 64)) 1 1 = -8388608 ∧ imageX (transform (gridState 2 0 64)) 3 1 = -25165824 ∧
    imageY (transform (gridState 2 0 64)) 1 1 = -8388608 ∧ imageY (transform (gridState 2 0 64)) 3 1 = -8388608 ∧
    imageW (transform (gridState 2 0 64)) 1 1 = -262144 ∧ imageW (transform (gridState 2 0 64)) 3 1 = -262144 := by
  decide +kernel

/-- Module (0, 0) maps to pixel (2, 2), on whose corner its centre lies (95_test_vectors.md G7). -/
theorem gridState_module_in (size : BitVec 16) : MapsTo (gridState size 0 64) 0 0 2 2 := by
  obtain ⟨hx, -, hy, -, hw, -⟩ := gridState_coordinates
  have hx' : imageX (transform (gridState size 0 64)) 1 1 = -8388608 := hx
  have hy' : imageY (transform (gridState size 0 64)) 1 1 = -8388608 := hy
  have hw' : imageW (transform (gridState size 0 64)) 1 1 = -262144 := hw
  refine ⟨?_, ?_, ?_, (by decide : 2 < 4), (by decide : 2 < 4)⟩ <;>
    norm_num only [Nat.cast_zero, mul_zero, zero_add, hx', hy', hw', Int.cast_neg, Int.cast_ofNat, ne_eq]

/-- Module (1, 0) maps to column 6 of an image of 4. -/
theorem gridState_module_out (size : BitVec 16) : MapsOut (gridState size 0 64) 1 0 := by
  obtain ⟨-, hx, -, -, -, hw⟩ := gridState_coordinates
  have hx' : imageX (transform (gridState size 0 64)) 3 1 = -25165824 := hx
  have hw' : imageW (transform (gridState size 0 64)) 3 1 = -262144 := hw
  rintro ⟨px, py, -, h, -, hlt, -⟩
  have hlt' : px < 4 := hlt
  norm_num [hx', hw'] at h
  omega

/-- A module of the matrix that maps in, and one that maps out. -/
theorem witness_GsmapReturnsThePixel :
    (gridState 2 0 64).err = false ∧ ¬ TooLarge (gridState 2 0 64) ∧ ¬ SamplerBad (gridState 2 0 64) ∧
    (0 : BitVec 8).toNat < (gridState 2 0 64).gs.size.toNat ∧ (1 : BitVec 8).toNat < (gridState 2 0 64).gs.size.toNat ∧
    MapsTo (gridState 2 0 64) (0 : BitVec 8).toNat (0 : BitVec 8).toNat 2 2 ∧
    MapsOut (gridState 2 0 64) (1 : BitVec 8).toNat (0 : BitVec 8).toNat := by
  refine ⟨rfl, ?_, ?_, by decide +kernel, by decide +kernel, gridState_module_in 2, gridState_module_out 2⟩
  · unfold TooLarge; decide +kernel
  · unfold SamplerBad ThreeCollinear; decide +kernel

/-- Every module of a matrix of one maps in. -/
theorem witness_GsrunSamplesEveryModule :
    (gridState 1 0 64).err = false ∧ ¬ TooLarge (gridState 1 0 64) ∧ ¬ SamplerBad (gridState 1 0 64) ∧
    ∀ c r, c < (gridState 1 0 64).gs.size.toNat → r < (gridState 1 0 64).gs.size.toNat →
      ¬ MapsOut (gridState 1 0 64) c r := by
  refine ⟨rfl, ?_, ?_, fun c r hc hr h => h ⟨2, 2, ?_⟩⟩
  · unfold TooLarge; decide +kernel
  · unfold SamplerBad ThreeCollinear; decide +kernel
  · have hs : (gridState 1 0 64).gs.size.toNat = 1 := by decide +kernel
    obtain ⟨rfl, rfl⟩ : c = 0 ∧ r = 0 := by omega
    exact gridState_module_in 1

/-- Module (1, 0) of a matrix of two is the first that maps out. -/
theorem witness_GsrunStopsAtTheFirstModuleOutside :
    (gridState 2 0 64).err = false ∧ ¬ TooLarge (gridState 2 0 64) ∧ ¬ SamplerBad (gridState 2 0 64) ∧
    1 < (gridState 2 0 64).gs.size.toNat ∧ 0 < (gridState 2 0 64).gs.size.toNat ∧ MapsOut (gridState 2 0 64) 1 0 ∧
    ∀ c' r', c' < (gridState 2 0 64).gs.size.toNat →
      r' * (gridState 2 0 64).gs.size.toNat + c' < 0 * (gridState 2 0 64).gs.size.toNat + 1 →
      ¬ MapsOut (gridState 2 0 64) c' r' := by
  have hs : (gridState 2 0 64).gs.size.toNat = 2 := by decide +kernel
  refine ⟨rfl, ?_, ?_, by omega, by omega, gridState_module_out 2, fun c r hc hr h => h ⟨2, 2, ?_⟩⟩
  · unfold TooLarge; decide +kernel
  · unfold SamplerBad ThreeCollinear; decide +kernel
  · rw [hs] at hr
    obtain ⟨rfl, rfl⟩ : c = 0 ∧ r = 0 := by omega
    exact gridState_module_in 2

/-- Three points given, so both quadruples are parallelograms. -/
theorem witness_TransformSendsGridPointsToPixelPoints :
    ¬ ThreeCollinear (gridQuad (gridState 1 0 64)) ∧ ¬ ThreeCollinear (pixelQuad (gridState 1 0 64)) ∧
    (gridState 1 0 64).gs.npts.toNat = 3 ∧
    (pixelQuad (gridState 1 0 64)).p3 =
      completeParallelogram (pixelQuad (gridState 1 0 64)).p0 (pixelQuad (gridState 1 0 64)).p1
        (pixelQuad (gridState 1 0 64)).p2 := by
  unfold ThreeCollinear
  decide +kernel

theorem witness_SamplerArithmeticIsBounded : (0 : Nat) < 177 ∧ (176 : Nat) < 177 := by decide

/-! ## Witnesses: the Reed–Solomon decoder -/

/-- 95_test_vectors.md S16: K = 0, E = 0, K + E = 256 are refused; the bounds on the other side are accepted. -/
theorem witness_RsdecChecksItsParameters :
    (∀ s ∈ [blockState 0 4 [], blockState 4 0 [], blockState 200 56 [], blockState 65535 65535 []],
      s.err = false ∧ ¬ RsReady s) ∧
    ∀ s ∈ [blockState 1 254 [], blockState 128 127 [], blockState 1 1 []], s.err = false ∧ RsReady s := by
  unfold RsReady
  decide +kernel

/-- 95_test_vectors.md S10: a codeword. -/
theorem witness_RsdecAcceptsACodeword :
    let s := blockState 2 3 [0xAB, 0xCD, 0xEA, 0x3D, 0xB1]
    s.err = false ∧ RsReady s ∧ IsCodeword (readCell s .cw) (blockLength s) s.rs.e.toNat := by
  unfold RsReady IsCodeword
  decide +kernel

/-- 95_test_vectors.md S10: one error, the most that E = 3 corrects. -/
theorem witness_RsdecCorrectsTheRootPositions :
    let s := blockState 2 3 [0xAB, 0xCD, 0xEA, 0x3D, 0xA1]
    s.err = false ∧ RsReady s ∧ ¬ IsCodeword (readCell s .cw) (blockLength s) s.rs.e.toNat ∧
    (solved s).l ≤ s.rs.e.toNat / 2 ∧ (rootPositions s).length = (solved s).l := by
  unfold RsReady IsCodeword
  decide +kernel

/-- 95_test_vectors.md S11, where L is above t, and S8, where the roots are too few. -/
theorem witness_RsdecReportsUncorrectableBlocks :
    (let s := blockState 2 3 [0xAC, 0xCD, 0xEA, 0x3D, 0xA1]
     s.err = false ∧ RsReady s ∧ ¬ IsCodeword (readCell s .cw) (blockLength s) s.rs.e.toNat ∧
       s.rs.e.toNat / 2 < (solved s).l) ∧
    let s := blockState 3 4 [0x00, 0x02, 0x03, 0x89, 0xF3, 0x8E, 0x76]
    s.err = false ∧ RsReady s ∧ ¬ IsCodeword (readCell s .cw) (blockLength s) s.rs.e.toNat ∧
      (rootPositions s).length ≠ (solved s).l := by
  unfold RsReady IsCodeword
  decide +kernel

theorem witness_BerlekampMasseyGeneratesTheSyndromes :
    (berlekampMassey [0x55, 0x72, 0xE6, 0x91] 4).l ≤ 3 ∧ (3 : Nat) < 4 ∧
    (berlekampMassey [0x55, 0x72, 0xE6, 0x91] 4).l < 2 := by decide +kernel

/-- 95_test_vectors.md S7: two error positions. -/
theorem witness_ForneyNeverDividesByZero :
    let s := blockState 3 4 [0x00, 0x02, 0x03, 0x8B, 0xF3, 0x8E, 0x76]
    RsReady s ∧ (rootPositions s).length = (solved s).l ∧ rootPositions s = [0, 6] := by
  unfold RsReady
  decide +kernel

/-- 95_test_vectors.md S6. -/
theorem witness_RsdecSuccessLeavesACodeword :
    (blockState 3 4 [0x01, 0x57, 0x03, 0x8B, 0xF3, 0x8E, 0xF6]).err = false ∧
    ∃ t, exec .rsdec (blockState 3 4 [0x01, 0x57, 0x03, 0x8B, 0xF3, 0x8E, 0xF6]) = .next t ∧ t.rsok = true := by
  have h : (nextOf (exec .rsdec (blockState 3 4 [0x01, 0x57, 0x03, 0x8B, 0xF3, 0x8E, 0xF6]))).map (fun t => t.rsok) =
      some true := by decide +kernel
  obtain ⟨t, ht, hok⟩ := Option.map_eq_some_iff.mp h
  exact ⟨by decide +kernel, t, eq_next_of_nextOf ht, hok⟩

/-- 95_test_vectors.md S7: two cells differ from the codeword, as many as t. -/
theorem witness_RsdecRestoresUpToTErrors :
    let s := blockState 3 4 [0x00, 0x02, 0x03, 0x8B, 0xF3, 0x8E, 0x76]
    let cw := coef [0x01, 0x02, 0x03, 0x8B, 0xF3, 0x8E, 0xF6]
    s.err = false ∧ RsReady s ∧ IsCodeword cw (blockLength s) s.rs.e.toNat ∧
    ((List.range (blockLength s)).filter (fun i => decide (readCell s .cw i ≠ cw i))).length = s.rs.e.toNat / 2 := by
  unfold RsReady IsCodeword
  decide +kernel

/-! ## Witnesses: the whole machine -/

theorem witness_OnlyFieldCommandsWriteRegisters :
    ∃ t, exec (.gfli 5 0x53) State.reset = .next t ∧ readReg t 5 ≠ readReg State.reset 5 :=
  ⟨_, rfl, by decide +kernel⟩

/-- A cell that reads differently after ST. -/
theorem witness_EachSpaceHasItsWriters :
    ∃ t, exec (.st .cw 0x11) (cellState .cw 0 [0x22]) = .next t ∧
      readCell t .cw 0 ≠ readCell (cellState .cw 0 [0x22]) .cw 0 :=
  ⟨_, rfl, by decide +kernel⟩

/-- CSRWR changes CELLS; BINRUN on a size of zero changes ERRCODE and STATUS; CLRERR changes STATUS while latched. -/
theorem witness_EachCsrHasItsWriters :
    (∃ t, exec (.csrwr 0x13 1) State.reset = .next t ∧ csrValue t .cells ≠ csrValue State.reset .cells) ∧
    (∃ t, exec .binrun State.reset = .next t ∧ csrValue t .errcode ≠ csrValue State.reset .errcode ∧
      csrValue t .status ≠ csrValue State.reset .status) ∧
    ∃ t, exec .clrerr latchedState = .next t ∧ latchedState.err = true ∧
      csrValue t .status ≠ csrValue latchedState .status :=
  ⟨⟨_, rfl, by decide +kernel⟩, ⟨_, rfl, by decide +kernel, by decide +kernel⟩, ⟨_, rfl, rfl, by decide +kernel⟩⟩

/-- 10_state.md R45: THR is no space of one-bit cells, MM is one; 9 is the first selector of none. -/
theorem witness_SpacesOfTheMap :
    ¬ (Space.thr = .bm ∨ Space.thr = .mm) ∧ (Space.mm = .bm ∨ Space.mm = .mm) ∧ (9 : Nat) ≤ (9 : BitVec 4).toNat := by
  decide

/-- CLRERR clears ERR; RSDEC with K = 0 clears RSOK; a word of BINRUN's opcode with a bit too many is illegal. -/
theorem witness_EachFlagFollowsItsCommand :
    (∃ t, exec .clrerr latchedState = .next t ∧ latchedState.err = true ∧ t.err = false) ∧
    (∃ t, exec .rsdec { State.reset with rsok := true } = .next t ∧ t.rsok = false ∧ t.err = true) ∧
    decode 0x20000001 = .error .mustBeZeroBit ∧
    ∃ t, step (atPort 0x20000001 { State.reset with binok := true }) = .next t ∧ t.binok = true :=
  ⟨⟨_, rfl, rfl, rfl⟩, ⟨_, rfl, by decide +kernel, by decide +kernel⟩, by decide, ⟨_, rfl, by decide +kernel⟩⟩

theorem witness_FaultKeepsAllButLatchFlagAndResults :
    State.reset.err = false ∧ ∃ t, exec .binrun State.reset = .next t ∧ t.err = true :=
  ⟨rfl, _, rfl, by decide +kernel⟩

/-- Two states that differ in a pixel, and the nine commands' mnemonics. -/
theorem witness_FaultsDependOnNoPixel :
    Instr.mnemonic (.gfexp 1 2) ∈ ["NOP", "CLRERR", "SETPTR", "GFLI", "GFMV", "GFRD", "GFADD", "GFMUL", "GFEXP"] ∧
    (∃ t, exec .binrun (imageState 1 1 0 1 [0]) = .next t) ∧ (∃ t, exec .binrun (imageState 1 1 0 1 [9]) = .next t) ∧
    imageState 1 1 0 1 [9] ≠ imageState 1 1 0 1 [0] ∧
    imageState 1 1 0 1 [9] = { imageState 1 1 0 1 [0] with mem := (imageState 1 1 0 1 [9]).mem } :=
  ⟨by decide, ⟨_, rfl⟩, ⟨_, rfl⟩, by decide +kernel, rfl⟩

end Sys2Proof.Tests
end

section
/-! PROOFS. The values after reset (10_state.md R23, R54). -/

namespace Sys2Proof.Machine

/-- Every general register is zero after reset (10_state.md R54). -/
theorem readReg_reset (r : Reg) : readReg State.reset r = 0 := by
  simp [readReg, State.reset, Vector.get_eq_getElem]

/-- Every coordinate of every reference point is zero after reset (10_state.md R54). -/
theorem get_pts_reset (i : Fin 4) : State.reset.pts.get i = ⟨0, 0, 0, 0⟩ := by
  simp [State.reset, Vector.get_eq_getElem]

/-- A read-write register is zero after reset, except CELLS and GS_NPTS, which are 4 (10_state.md R54). -/
theorem csrValue_reset_of_writable {c : Csr} (h : c.writable = true) :
    csrValue State.reset c = if c = .cells ∨ c = .gsNpts then 4 else 0 := by
  cases c with
  | gsU i | gsV i | gsX i | gsY i => simp [csrValue, get_pts_reset]
  | imgW | imgH | pxfmt | cells | gsSize | gsNpts | rsK | rsE => rfl
  | id | status | errcode | errcmdLo | errcmdHi | ptr | maxpixLo | maxpixHi => cases h
  | gsMapx | gsMapy | gsFailc | gsFailr | rsL | rsNerr => cases h

/-- Settles O13. -/
theorem resetValuesOfTheRegisters : Obligations.ResetValuesOfTheRegisters := by
  unfold Obligations.ResetValuesOfTheRegisters
  have hread : ∀ c ∈ [Csr.status, .errcode, .errcmdLo, .errcmdHi, .ptr, .gsMapx, .gsMapy, .gsFailc, .gsFailr, .rsL,
      .rsNerr], csrValue State.reset c = 0 := by decide
  exact ⟨readReg_reset, rfl, rfl, rfl, rfl, rfl, rfl, rfl, fun _ => csrValue_reset_of_writable, hread⟩

end Sys2Proof.Machine
end

section
/-! PROOFS. The flags of STATUS (10_state.md R29, R30): which commands change them, and to what. -/

namespace Sys2Proof.Machine

/-! ## Commands that leave the OK flags -/

/-- The three OK flags of `t` are those of `s`. -/
def SameOkFlags (s t : State) : Prop := t.binok = s.binok ∧ t.gsok = s.gsok ∧ t.rsok = s.rsok

/-- A command that answers `r` in the state `s` leaves the three OK flags. -/
def LeavesOkFlags (s : State) (r : Result) : Prop := ∀ t, r = .next t → SameOkFlags s t

theorem SameOkFlags.refl (s : State) : SameOkFlags s s := ⟨rfl, rfl, rfl⟩

theorem sameOkFlags_writeCsr (s : State) (c : Csr) (v : BitVec 16) : SameOkFlags s (writeCsr s c v) := by
  rw [writeCsr_frame]
  exact ⟨rfl, rfl, rfl⟩

theorem leavesOkFlags_respond {s s' : State} (h : SameOkFlags s s') (d : BitVec 24) :
    LeavesOkFlags s (respond s' d) := by
  intro t ht
  rw [respond_next ht]
  exact h

theorem leavesOkFlags_raiseFault {s s' : State} (h : SameOkFlags s s') (code : FaultCode) (cmd : Word32) :
    LeavesOkFlags s (raiseFault code cmd s') := by
  intro t ht
  rw [raiseFault_next ht]
  exact h

/-- A refusal changes no OK flag, so of a refusable command only its meaning has to be looked at. -/
theorem leavesOkFlags_unlessLatched {s : State} {body : State → Result} (h : LeavesOkFlags s (body s)) :
    LeavesOkFlags s (unlessLatched s body) := by
  intro t ht
  obtain ⟨_, rfl⟩ | ⟨_, ht⟩ := unlessLatched_next ht
  · exact ⟨rfl, rfl, rfl⟩
  · exact h t ht

theorem leavesOkFlags_writeAndRespond (s : State) (rd : Reg) (v : Byte) :
    LeavesOkFlags s (writeAndRespond s rd v) :=
  leavesOkFlags_respond ⟨rfl, rfl, rfl⟩ 0

theorem leavesOkFlags_writeOrGfZero (s : State) (cmd : Word32) (rd : Reg) (o : Option Byte) :
    LeavesOkFlags s (writeOrGfZero s cmd rd o) := by
  cases o with
  | some v => exact leavesOkFlags_writeAndRespond s rd v
  | none => exact leavesOkFlags_raiseFault (.refl s) _ _

theorem leavesOkFlags_illegalWord (cmd : Word32) (s : State) : LeavesOkFlags s (illegalWord cmd s) :=
  leavesOkFlags_unlessLatched (leavesOkFlags_raiseFault (.refl s) _ _)

theorem leavesOkFlags_execCsrrd (csr : BitVec 8) (s : State) : LeavesOkFlags s (execCsrrd csr s) := by
  unfold execCsrrd
  split
  · exact leavesOkFlags_respond (.refl s) _
  · exact leavesOkFlags_unlessLatched (leavesOkFlags_raiseFault (.refl s) _ _)

theorem leavesOkFlags_execCsrwr (csr : BitVec 8) (imm16 : BitVec 16) (s : State) :
    LeavesOkFlags s (execCsrwr csr imm16 s) := by
  refine leavesOkFlags_unlessLatched ?_
  split
  · split
    · exact leavesOkFlags_respond (sameOkFlags_writeCsr s _ _) 0
    · exact leavesOkFlags_raiseFault (.refl s) _ _
  · exact leavesOkFlags_raiseFault (.refl s) _ _

theorem leavesOkFlags_execLd (space : Space) (s : State) : LeavesOkFlags s (execLd space s) := by
  refine leavesOkFlags_unlessLatched ?_
  split
  · exact leavesOkFlags_raiseFault (.refl s) _ _
  · exact leavesOkFlags_respond ⟨rfl, rfl, rfl⟩ _

theorem leavesOkFlags_execSt (space : Space) (imm8 : Byte) (s : State) :
    LeavesOkFlags s (execSt space imm8 s) := by
  refine leavesOkFlags_unlessLatched ?_
  split
  · exact leavesOkFlags_raiseFault (.refl s) _ _
  split
  · exact leavesOkFlags_raiseFault (.refl s) _ _
  split
  · exact leavesOkFlags_raiseFault (.refl s) _ _
  · exact leavesOkFlags_respond ⟨rfl, rfl, rfl⟩ 0

/-- GSMAP uses the sampler but is no execution of GSRUN (42_grid_sampler.md R193). -/
theorem leavesOkFlags_execGsmap (row col : BitVec 8) (s : State) : LeavesOkFlags s (execGsmap row col s) := by
  refine leavesOkFlags_unlessLatched ?_
  split
  · exact leavesOkFlags_raiseFault (.refl s) _ _
  split
  · exact leavesOkFlags_raiseFault (.refl s) _ _
  split
  · exact leavesOkFlags_raiseFault ⟨rfl, rfl, rfl⟩ _ _
  · exact leavesOkFlags_respond ⟨rfl, rfl, rfl⟩ _

/-- Every command but the three engines' own leaves the OK flags (10_state.md R30). -/
theorem leavesOkFlags_exec {i : Instr} (hb : i ≠ .binrun) (hg : i ≠ .gsrun) (hr : i ≠ .rsdec) (s : State) :
    LeavesOkFlags s (exec i s) := by
  unfold exec
  cases i with
  | nop | gfrd => exact leavesOkFlags_unlessLatched (leavesOkFlags_respond (.refl s) _)
  | clrerr => exact leavesOkFlags_respond ⟨rfl, rfl, rfl⟩ 0
  | setptr => exact leavesOkFlags_unlessLatched (leavesOkFlags_respond ⟨rfl, rfl, rfl⟩ 0)
  | csrrd csr => exact leavesOkFlags_execCsrrd csr s
  | csrwr csr imm16 => exact leavesOkFlags_execCsrwr csr imm16 s
  | ld space => exact leavesOkFlags_execLd space s
  | st space imm8 => exact leavesOkFlags_execSt space imm8 s
  | gfli | gfmv | gfadd | gfmul | gfexp =>
    exact leavesOkFlags_unlessLatched (leavesOkFlags_writeAndRespond s _ _)
  | gfdiv | gfinv | gflog => exact leavesOkFlags_unlessLatched (leavesOkFlags_writeOrGfZero s _ _ _)
  | gsmap row col => exact leavesOkFlags_execGsmap row col s
  | binrun => exact absurd rfl hb
  | gsrun => exact absurd rfl hg
  | rsdec => exact absurd rfl hr

/-! ## The engines while no error is latched -/

/-- BINOK after BINRUN (41_binarizer.md R161). -/
theorem execBinrun_okFlags {s t : State} (he : s.err = false) (h : execBinrun s = .next t) :
    t.binok = !t.err ∧ t.gsok = s.gsok ∧ t.rsok = s.rsok := by
  rw [execBinrun, unlessLatched_of_clear he] at h
  split at h
  · simp [failBinrun_next h]
  split at h
  · simp [failBinrun_next h]
  · simp [endBinrun_next h, he]

/-- GSOK after the sampling of GSRUN (42_grid_sampler.md R191). -/
theorem sampleGrid_okFlags {s t : State} (he : s.err = false) (h : sampleGrid s = .next t) :
    t.gsok = !t.err ∧ t.binok = s.binok ∧ t.rsok = s.rsok := by
  dsimp only [sampleGrid] at h
  split at h
  · simp [endGsrun_next h, he]
  · simp [failGsrun_next h]

/-- GSOK after GSRUN (42_grid_sampler.md R191). -/
theorem execGsrun_okFlags {s t : State} (he : s.err = false) (h : execGsrun s = .next t) :
    t.gsok = !t.err ∧ t.binok = s.binok ∧ t.rsok = s.rsok := by
  rw [execGsrun, unlessLatched_of_clear he] at h
  split at h
  · simp [failGsrun_next h]
  · exact sampleGrid_okFlags he h

/-- RSOK after the failure tests and the correction of RSDEC (43_rs_decoder.md R217, R218, R221). -/
theorem correctBlock_okFlags {s t : State} {syn c : List Byte} {l e n : Nat} (he : s.err = false)
    (h : correctBlock s syn c l e n = .next t) : t.rsok = !t.err ∧ t.binok = s.binok ∧ t.gsok = s.gsok := by
  unfold correctBlock at h
  split at h
  · simp [failRsdec_next h]
  split at h
  · simp [failRsdec_next h]
  · rw [endRsdec_next h, correctCells_frame]
    simp [he]

/-- RSOK after RSDEC on a block with K and E in range (43_rs_decoder.md R210). -/
theorem decodeBlock_okFlags {s t : State} {n e : Nat} (he : s.err = false) (h : decodeBlock s n e = .next t) :
    t.rsok = !t.err ∧ t.binok = s.binok ∧ t.gsok = s.gsok := by
  dsimp only [decodeBlock] at h
  split at h
  · simp [endRsdec_next h, he]
  · simpa using correctBlock_okFlags (by simpa using he) h

/-- RSOK after RSDEC (43_rs_decoder.md R210). -/
theorem execRsdec_okFlags {s t : State} (he : s.err = false) (h : execRsdec s = .next t) :
    t.rsok = !t.err ∧ t.binok = s.binok ∧ t.gsok = s.gsok := by
  rw [execRsdec, unlessLatched_of_clear he] at h
  split at h
  · simp [failRsdec_next h]
  · exact decodeBlock_okFlags he h

/-- The OK flags after any command, while no error is latched: each tells how its own engine's command ended. -/
theorem exec_okFlags_of_clear {i : Instr} {s t : State} (he : s.err = false) (h : exec i s = .next t) :
    t.binok = (if i = .binrun then !t.err else s.binok) ∧ t.gsok = (if i = .gsrun then !t.err else s.gsok) ∧
      t.rsok = (if i = .rsdec then !t.err else s.rsok) := by
  by_cases hb : i = .binrun
  · subst hb
    simpa using execBinrun_okFlags he h
  by_cases hg : i = .gsrun
  · subst hg
    obtain ⟨hgsok, hbinok, hrsok⟩ := execGsrun_okFlags he h
    simp [hgsok, hbinok, hrsok]
  by_cases hr : i = .rsdec
  · subst hr
    obtain ⟨hrsok, hbinok, hgsok⟩ := execRsdec_okFlags he h
    simp [hgsok, hbinok, hrsok]
  · simpa [hb, hg, hr, SameOkFlags] using leavesOkFlags_exec hb hg hr s t h

/-! ## While an error is latched -/

/-- Every command but CLRERR and CSRRD is one that the latch refuses (30_encoding.md R95 step 1). -/
theorem exec_eq_unlessLatched {i : Instr} (hc : i ≠ .clrerr) (hr : ∀ csr, i ≠ .csrrd csr) :
    ∃ body, ∀ s, exec i s = unlessLatched s body := by
  cases i with
  | clrerr => exact absurd rfl hc
  | csrrd csr => exact absurd rfl (hr csr)
  | _ => exact ⟨_, fun _ => rfl⟩

/-- A CSRRD while an error is latched is carried out or refused (44_system_commands.md R243). -/
theorem execCsrrd_next_of_latched {csr : BitVec 8} {s t : State} (he : s.err = true)
    (h : execCsrrd csr s = .next t) :
    (∃ c, Csr.ofAddr csr = some c ∧ t = deliver s (responseWord false 0 (csrValue s c))) ∨
      t = deliver s (responseWord true 0x7F 0) := by
  unfold execCsrrd at h
  split at h
  next c hc => exact .inl ⟨c, hc, respond_next h⟩
  next => exact .inr (refuse_next (unlessLatched_of_latched he ▸ h))

/-- While an error is latched, a command is CLRERR, or reads an assigned register, or is refused
(60_exceptions.md R264). -/
theorem exec_next_of_latched {i : Instr} {s t : State} (he : s.err = true) (h : exec i s = .next t) :
    (i = .clrerr ∧ t = deliver (clearLatch s) (responseWord false 0 0)) ∨
      (∃ csr c, i = .csrrd csr ∧ Csr.ofAddr csr = some c ∧ t = deliver s (responseWord false 0 (csrValue s c))) ∨
      t = deliver s (responseWord true 0x7F 0) := by
  by_cases hc : i = .clrerr
  · subst hc
    exact .inl ⟨rfl, respond_next h⟩
  by_cases hr : ∃ csr, i = .csrrd csr
  · obtain ⟨csr, rfl⟩ := hr
    obtain ⟨c, hcsr, ht⟩ | ht := execCsrrd_next_of_latched he h
    · exact .inr (.inl ⟨csr, c, rfl, hcsr, ht⟩)
    · exact .inr (.inr ht)
  · obtain ⟨body, hbody⟩ := exec_eq_unlessLatched hc (not_exists.mp hr)
    rw [hbody, unlessLatched_of_latched he] at h
    exact .inr (.inr (refuse_next h))

/-- While an error is latched no command changes an OK flag, and only CLRERR clears ERR (10_state.md R30). -/
theorem exec_flags_of_latched {i : Instr} {s t : State} (he : s.err = true) (h : exec i s = .next t) :
    SameOkFlags s t ∧ (t.err = false → i = .clrerr) := by
  obtain ⟨hi, rfl⟩ | ⟨_, _, _, _, rfl⟩ | rfl := exec_next_of_latched he h
  · exact ⟨⟨rfl, rfl, rfl⟩, fun _ => hi⟩
  · exact ⟨⟨rfl, rfl, rfl⟩, by simp [he]⟩
  · exact ⟨⟨rfl, rfl, rfl⟩, by simp [he]⟩

/-! ## Words that are no command -/

/-- A step on a word that is no command (30_encoding.md R95 step 2). -/
theorem step_of_decode_error {s : State} {w : Word32} {rest : List HostAction} {e : DecodeError}
    (hp : s.portIn = .command w :: rest) (hd : decode w = .error e) :
    step s = illegalWord w { s with portIn := rest } := by
  simp [step, takeAction, hp, hd]

/-- Settles O58: the two lemmas on `exec`, with and without a latched error, and the one on illegal words. -/
theorem eachFlagFollowsItsCommand : Obligations.EachFlagFollowsItsCommand := by
  unfold Obligations.EachFlagFollowsItsCommand
  refine ⟨fun i s t h => ?_, fun s t w rest e hp hd h => ?_⟩
  · cases he : s.err with
    | false =>
      obtain ⟨hbinok, hgsok, hrsok⟩ := exec_okFlags_of_clear he h
      rw [hbinok, hgsok, hrsok]
      simp +contextual
    | true =>
      obtain ⟨⟨hbinok, hgsok, hrsok⟩, herr⟩ := exec_flags_of_latched he h
      simpa [hbinok, hgsok, hrsok] using herr
  · rw [step_of_decode_error hp hd] at h
    exact leavesOkFlags_illegalWord w { s with portIn := rest } t h

end Sys2Proof.Machine
end

section
/-! PROOFS. The decoder and the opcode map (30_encoding.md R94, R96): the row of a word, what that row says of it, and
that the decoder answers exactly this. -/

namespace Sys2Proof

/-! ## Opcode and operands of a masked word (30_encoding.md R91) -/

theorem fieldOpcode_and (v w : Word32) : fieldOpcode (v &&& w) = fieldOpcode v &&& fieldOpcode w := by
  simp [fieldOpcode, BitVec.extractLsb'_and]

theorem fieldImm24_and (v w : Word32) : fieldImm24 (v &&& w) = fieldImm24 v &&& fieldImm24 w := by
  simp [fieldImm24, BitVec.extractLsb'_and]

theorem fieldOpcode_append_fieldImm24 (w : Word32) : fieldOpcode w ++ fieldImm24 w = w := by
  rw [fieldOpcode, fieldImm24, BitVec.extractLsb'_append_extractLsb'_eq_extractLsb' (by rfl)]
  simp

theorem eq_iff_opcode_and_imm24 (v w : Word32) :
    v = w ↔ fieldOpcode v = fieldOpcode w ∧ fieldImm24 v = fieldImm24 w := by
  refine ⟨fun h => h ▸ ⟨rfl, rfl⟩, fun ⟨hop, himm⟩ => ?_⟩
  rw [← fieldOpcode_append_fieldImm24 v, hop, himm, fieldOpcode_append_fieldImm24]

/-- The upper byte of a word is its opcode. -/
theorem and_opcodeMask_eq_iff (v w : Word32) :
    v &&& 0xFF000000 = w &&& 0xFF000000 ↔ fieldOpcode v = fieldOpcode w := by
  have hop : fieldOpcode 0xFF000000 = BitVec.allOnes 8 := by decide
  have himm : fieldImm24 0xFF000000 = 0 := by decide
  simp only [eq_iff_opcode_and_imm24, fieldOpcode_and, fieldImm24_and, hop, himm, BitVec.and_allOnes]
  simp

/-! ## The row of a word -/

def TableRow.opcode (row : TableRow) : BitVec 8 := fieldOpcode row.pattern

/-- The bits under the opcode that the row's format marks 0. -/
def TableRow.zeroBits (row : TableRow) : Word32 := row.mask &&& 0x00FFFFFF

/-- The row is the one of the opcode map that has the word's opcode. -/
def HasRow (w : Word32) (row : TableRow) : Prop := row ∈ commandTable ∧ fieldOpcode w = row.opcode

theorem nodup_opcode_commandTable : (commandTable.map TableRow.opcode).Nodup := by decide

theorem fieldOpcode_mask_of_mem : ∀ row ∈ commandTable, fieldOpcode row.mask = BitVec.allOnes 8 := by decide

theorem fieldImm24_pattern_of_mem : ∀ row ∈ commandTable, fieldImm24 row.pattern = 0 := by decide

theorem HasRow.unique {w : Word32} {row row' : TableRow} (h : HasRow w row) (h' : HasRow w row') : row = row' :=
  List.inj_on_of_nodup_map nodup_opcode_commandTable h.1 h'.1 (h.2.symm.trans h'.2)

theorem hasRow_of_fits {w : Word32} {row : TableRow} (hrow : row ∈ commandTable)
    (hfit : w &&& row.mask = row.pattern) : HasRow w row := by
  refine ⟨hrow, ?_⟩
  calc fieldOpcode w = fieldOpcode (w &&& row.mask) := by
        rw [fieldOpcode_and, fieldOpcode_mask_of_mem row hrow, BitVec.and_allOnes]
    _ = row.opcode := by rw [hfit, TableRow.opcode]

/-- A word with the opcode of a row fits it when the bits that the format marks 0 are zero. -/
theorem HasRow.fits_iff {w : Word32} {row : TableRow} (h : HasRow w row) :
    w &&& row.mask = row.pattern ↔ w &&& row.zeroBits = 0 := by
  obtain ⟨hrow, hop⟩ := h
  have hopMask : fieldOpcode 0x00FFFFFF = 0 := by decide
  have himmMask : fieldImm24 0x00FFFFFF = BitVec.allOnes 24 := by decide
  have hopZero : fieldOpcode 0 = 0 := by decide
  have himmZero : fieldImm24 0 = 0 := by decide
  simp only [eq_iff_opcode_and_imm24, fieldOpcode_and, fieldImm24_and, TableRow.zeroBits, hopMask, himmMask,
    hopZero, himmZero, fieldOpcode_mask_of_mem row hrow, fieldImm24_pattern_of_mem row hrow, hop, TableRow.opcode,
    BitVec.and_allOnes, true_and]
  simp

/-! ## What the row of a word says of it -/

/-- The word is of LD or ST and its selector names no space (30_encoding.md R96 (c)). -/
def TableRow.lacksSpace (row : TableRow) (w : Word32) : Bool :=
  (row.mnemonic = "LD" ∨ row.mnemonic = "ST") ∧ 9 ≤ (fieldSpace w).toNat

/-- The word is of ST and gives a cell of one bit a value above 1 (30_encoding.md R96 (d)). -/
def TableRow.overflowsBit (row : TableRow) (w : Word32) : Bool :=
  row.mnemonic = "ST" ∧ (fieldSpace w = 2 ∨ fieldSpace w = 3) ∧ 2 ≤ (fieldImm8 w).toNat

/-- What is wrong with a word that has the opcode of the row, if anything (30_encoding.md R96 (b) to (d)). -/
def TableRow.verdict (row : TableRow) (w : Word32) : Option DecodeError :=
  if w &&& row.mask ≠ row.pattern then some .mustBeZeroBit
  else if row.lacksSpace w then some .noSuchSpace
  else if row.overflowsBit w then some .notOneBit
  else none

section Verdict
variable (row : TableRow) (w : Word32)

theorem TableRow.lacksSpace_iff :
    row.lacksSpace w ↔ (row.mnemonic = "LD" ∨ row.mnemonic = "ST") ∧ 9 ≤ (fieldSpace w).toNat := by
  simp [TableRow.lacksSpace]

theorem TableRow.overflowsBit_iff :
    row.overflowsBit w ↔
      row.mnemonic = "ST" ∧ (fieldSpace w = 2 ∨ fieldSpace w = 3) ∧ 2 ≤ (fieldImm8 w).toNat := by
  simp [TableRow.overflowsBit]

/-- The ways (c) and (d) exclude each other: 2 and 3 are selectors of spaces. -/
theorem TableRow.not_lacksSpace_of_overflowsBit (h : row.overflowsBit w) : ¬ row.lacksSpace w := by
  obtain ⟨-, hsp | hsp, -⟩ := (row.overflowsBit_iff w).1 h <;> simp [row.lacksSpace_iff, hsp]

theorem TableRow.verdict_eq_none_iff :
    row.verdict w = none ↔ w &&& row.mask = row.pattern ∧ ¬ row.lacksSpace w ∧ ¬ row.overflowsBit w := by
  unfold TableRow.verdict
  split_ifs <;> simp_all

theorem TableRow.verdict_ne_unassignedOpcode : row.verdict w ≠ some .unassignedOpcode := by
  unfold TableRow.verdict
  split_ifs <;> simp

theorem TableRow.verdict_eq_mustBeZeroBit_iff :
    row.verdict w = some .mustBeZeroBit ↔ w &&& row.mask ≠ row.pattern := by
  unfold TableRow.verdict
  split_ifs <;> simp_all

theorem TableRow.verdict_eq_noSuchSpace_iff :
    row.verdict w = some .noSuchSpace ↔ w &&& row.mask = row.pattern ∧ row.lacksSpace w := by
  unfold TableRow.verdict
  split_ifs <;> simp_all

theorem TableRow.verdict_eq_notOneBit_iff :
    row.verdict w = some .notOneBit ↔ w &&& row.mask = row.pattern ∧ row.overflowsBit w := by
  have hexcl := row.not_lacksSpace_of_overflowsBit w
  unfold TableRow.verdict
  split_ifs <;> simp_all

end Verdict

/-! ## The decoder answers what the row says -/

theorem ofSelector_eq_none_iff : ∀ v : BitVec 4, Space.ofSelector v = none ↔ 9 ≤ v.toNat := by decide

theorem oneBit_iff_of_ofSelector {v : BitVec 4} {sp : Space} (h : Space.ofSelector v = some sp) :
    sp.oneBit = true ↔ v = 2 ∨ v = 3 := by
  revert v
  cases sp <;> decide

theorem wellFormed_st_iff (sp : Space) (v : Byte) : WellFormed (.st sp v) ↔ (sp.oneBit = true → v.toNat ≤ 1) := by
  cases h : sp.oneBit <;> simp [WellFormed, Instr.wellFormed, h, BitVec.le_def]

/-- What decoding the word `w` answers, by the row that has its opcode. -/
inductive DecodeSpec (w : Word32) : Except DecodeError Instr → Prop
  | noRow (h : ∀ row, ¬ HasRow w row) : DecodeSpec w (.error .unassignedOpcode)
  | illegal {row : TableRow} {e : DecodeError} (h : HasRow w row) (hv : row.verdict w = some e) :
      DecodeSpec w (.error e)
  | legal {row : TableRow} {i : Instr} (h : HasRow w row) (hv : row.verdict w = none)
      (hm : i.mnemonic = row.mnemonic) : DecodeSpec w (.ok i)

/-- `row` is found in the opcode map under the mnemonic `m`. -/
def RowNamed (m : String) (row : TableRow) : Prop := commandTable.find? (fun r => r.mnemonic = m) = some row

theorem RowNamed.mnemonic_eq {m : String} {row : TableRow} (h : RowNamed m row) : row.mnemonic = m := by
  simpa using List.find?_some h

theorem RowNamed.hasRow {m : String} {row : TableRow} {w : Word32} (h : RowNamed m row)
    (hop : (fieldOpcode w).toNat = row.opcode.toNat) : HasRow w row :=
  ⟨List.mem_of_find?_eq_some h, BitVec.eq_of_toNat_eq hop⟩

section Arms
variable {w : Word32} {row : TableRow}

theorem DecodeSpec.mustBeZeroBit (hr : HasRow w row) (hzero : w &&& row.zeroBits ≠ 0) :
    DecodeSpec w (.error .mustBeZeroBit) :=
  .illegal hr ((row.verdict_eq_mustBeZeroBit_iff w).2 (mt hr.fits_iff.1 hzero))

theorem DecodeSpec.noSuchSpace (hr : HasRow w row) (hzero : w &&& row.zeroBits = 0)
    (hm : row.mnemonic = "LD" ∨ row.mnemonic = "ST") (hsel : Space.ofSelector (fieldSpace w) = none) :
    DecodeSpec w (.error .noSuchSpace) :=
  have hlacks : row.lacksSpace w := (row.lacksSpace_iff w).2 ⟨hm, (ofSelector_eq_none_iff _).1 hsel⟩
  .illegal hr ((row.verdict_eq_noSuchSpace_iff w).2 ⟨hr.fits_iff.2 hzero, hlacks⟩)

theorem TableRow.not_lacksSpace_of_ofSelector {space : Space} (hsel : Space.ofSelector (fieldSpace w) = some space) :
    ¬ row.lacksSpace w := by
  simp [row.lacksSpace_iff, ← ofSelector_eq_none_iff, hsel]

/-- The commands other than LD and ST have no condition but the zero bits of their format. -/
theorem decodeSpec_checkZero {zero : Word32} {i : Instr} (hrow : RowNamed i.mnemonic row)
    (hop : (fieldOpcode w).toNat = row.opcode.toNat) (hz : row.zeroBits = zero)
    (hld : i.mnemonic ≠ "LD" := by simp [Instr.mnemonic]) (hst : i.mnemonic ≠ "ST" := by simp [Instr.mnemonic]) :
    DecodeSpec w (checkZero w zero i) := by
  have hr := hrow.hasRow hop
  rw [← hrow.mnemonic_eq] at hld hst
  subst hz
  unfold checkZero
  split
  case isTrue hzero =>
    refine .legal hr ((row.verdict_eq_none_iff w).2 ⟨hr.fits_iff.2 hzero, ?_, ?_⟩) hrow.mnemonic_eq.symm
    · simp [row.lacksSpace_iff, hld, hst]
    · simp [row.overflowsBit_iff, hst]
  case isFalse hzero => exact .mustBeZeroBit hr hzero

/-- CSRWR and SETPTR have no zero bits. -/
theorem checkZero_zero (w : Word32) (i : Instr) : checkZero w 0 i = .ok i := by
  simp [checkZero]

theorem decodeSpec_decodeLd (hrow : RowNamed "LD" row) (hop : (fieldOpcode w).toNat = row.opcode.toNat)
    (hz : row.zeroBits = 0x000FFFFF) : DecodeSpec w (decodeLd w) := by
  have hr := hrow.hasRow hop
  have hm := hrow.mnemonic_eq
  unfold decodeLd
  rw [← hz]
  split
  case isTrue hzero => exact .mustBeZeroBit hr hzero
  case isFalse hzero =>
    rw [ne_eq, not_not] at hzero
    split
    case h_1 space hsel =>
      refine .legal hr ((row.verdict_eq_none_iff w).2 ⟨hr.fits_iff.2 hzero, ?_, ?_⟩) hm.symm
      · exact row.not_lacksSpace_of_ofSelector hsel
      · simp [row.overflowsBit_iff, hm]
    case h_2 hsel => exact .noSuchSpace hr hzero (.inl hm) hsel

theorem decodeSpec_decodeSt (hrow : RowNamed "ST" row) (hop : (fieldOpcode w).toNat = row.opcode.toNat)
    (hz : row.zeroBits = 0x000FFF00) : DecodeSpec w (decodeSt w) := by
  have hr := hrow.hasRow hop
  have hm := hrow.mnemonic_eq
  unfold decodeSt
  rw [← hz]
  split
  case isTrue hzero => exact .mustBeZeroBit hr hzero
  case isFalse hzero =>
    rw [ne_eq, not_not] at hzero
    have hfit := hr.fits_iff.2 hzero
    split
    case h_1 space hsel =>
      have hover : row.overflowsBit w ↔ ¬ WellFormed (.st space (fieldImm8 w)) := by
        simp [wellFormed_st_iff, oneBit_iff_of_ofSelector hsel, row.overflowsBit_iff, hm, Nat.succ_le_iff]
      split
      case isTrue hwf =>
        refine .legal hr ((row.verdict_eq_none_iff w).2 ⟨hfit, ?_, ?_⟩) hm.symm
        · exact row.not_lacksSpace_of_ofSelector hsel
        · exact mt hover.1 (not_not.2 hwf)
      case isFalse hwf => exact .illegal hr ((row.verdict_eq_notOneBit_iff w).2 ⟨hfit, hover.2 hwf⟩)
    case h_2 hsel => exact .noSuchSpace hr hzero (.inr hm) hsel

end Arms

/-- The opcodes of the map (30_encoding.md R94). -/
theorem map_opcode_commandTable : commandTable.map TableRow.opcode =
    [0x00, 0x01, 0x02, 0x03, 0x04, 0x05, 0x06, 0x10, 0x11, 0x12, 0x18, 0x19, 0x1A, 0x1B, 0x1C, 0x1D, 0x20, 0x28, 0x29,
      0x30] := by decide

theorem exists_hasRow_iff (w : Word32) :
    (∃ row, HasRow w row) ↔ fieldOpcode w ∈ commandTable.map TableRow.opcode := by
  simp [HasRow, eq_comm]

theorem decodeSpec_decode (w : Word32) : DecodeSpec w (decode w) := by
  unfold decode
  split
  case h_4 hop => exact checkZero_zero w _ ▸ decodeSpec_checkZero rfl hop rfl
  case h_5 hop => exact checkZero_zero w _ ▸ decodeSpec_checkZero rfl hop rfl
  case h_6 hop => exact decodeSpec_decodeLd rfl hop rfl
  case h_7 hop => exact decodeSpec_decodeSt rfl hop rfl
  case h_21 =>
    refine .noRow (not_exists.1 fun hr => ?_)
    rw [exists_hasRow_iff, map_opcode_commandTable] at hr
    simp_all [← BitVec.toNat_inj]
  all_goals
    rename_i hop
    exact decodeSpec_checkZero rfl hop rfl

/-! ## Legal and illegal words by the opcode map -/

/-- A word is a command exactly when the row with its opcode finds nothing wrong with it. -/
theorem exists_decode_eq_ok_iff (w : Word32) (m : String) :
    (∃ i, decode w = .ok i ∧ i.mnemonic = m) ↔
      ∃ row, HasRow w row ∧ row.verdict w = none ∧ row.mnemonic = m := by
  have hspec := decodeSpec_decode w
  generalize decode w = answer at hspec
  cases hspec with
  | noRow hno => simp [hno]
  | illegal h hv =>
    suffices ∀ row, HasRow w row → row.verdict w = none → row.mnemonic ≠ m by simpa
    intro row' h' hv'
    rw [h.unique h', hv'] at hv
    cases hv
  | @legal row i h hv hm =>
    constructor
    · rintro ⟨_, ⟨⟩, rfl⟩
      exact ⟨row, h, hv, hm.symm⟩
    · rintro ⟨row', h', -, rfl⟩
      exact ⟨i, rfl, h.unique h' ▸ hm⟩

/-- A word is illegal in the way that the row with its opcode says. -/
theorem decode_eq_error_iff (w : Word32) (e : DecodeError) (he : e ≠ .unassignedOpcode := by decide) :
    decode w = .error e ↔ ∃ row, HasRow w row ∧ row.verdict w = some e := by
  have hspec := decodeSpec_decode w
  generalize decode w = answer at hspec
  cases hspec with
  | noRow hno => simp [hno, he.symm]
  | @illegal row e' h hv =>
    constructor
    · rintro ⟨⟩
      exact ⟨row, h, hv⟩
    · rintro ⟨row', h', hv'⟩
      rw [h.unique h', hv'] at hv
      rw [Option.some.inj hv]
  | legal h hv =>
    suffices ∀ row, HasRow w row → row.verdict w ≠ some e by simpa
    intro row' h' hv'
    rw [h.unique h', hv'] at hv
    cases hv

theorem decode_eq_unassignedOpcode_iff (w : Word32) :
    decode w = .error .unassignedOpcode ↔ ¬ ∃ row, HasRow w row := by
  have hspec := decodeSpec_decode w
  generalize decode w = answer at hspec
  cases hspec with
  | noRow hno => simpa using hno
  | @illegal row e h hv =>
    refine ⟨?_, fun hno => absurd ⟨row, h⟩ hno⟩
    rintro ⟨⟩
    exact absurd hv (row.verdict_ne_unassignedOpcode w)
  | @legal row i h => exact ⟨nofun, fun hno => absurd ⟨row, h⟩ hno⟩

end Sys2Proof
end

section
/-! PROOFS. The opcode map (30_encoding.md R94) and the illegal words (R96). -/

namespace Sys2Proof

/-- A row that the word fits is the row with the word's opcode. -/
theorem exists_hasRow_and_fits_iff (w : Word32) (p : TableRow → Prop) :
    (∃ row, HasRow w row ∧ w &&& row.mask = row.pattern ∧ p row) ↔
      ∃ row ∈ commandTable, w &&& row.mask = row.pattern ∧ p row :=
  exists_congr fun _ => and_congr_left fun ⟨hfit, _⟩ => ⟨fun h => h.1, fun hrow => hasRow_of_fits hrow hfit⟩

/-- The opcodes of no command, as ranges (30_encoding.md R96 (a)). -/
theorem not_mem_map_opcode_iff (op : BitVec 8) :
    op ∉ commandTable.map TableRow.opcode ↔
      (0x07 ≤ op ∧ op ≤ 0x0F) ∨ (0x13 ≤ op ∧ op ≤ 0x17) ∨ op = 0x1E ∨ op = 0x1F ∨ (0x21 ≤ op ∧ op ≤ 0x27) ∨
        (0x2A ≤ op ∧ op ≤ 0x2F) ∨ 0x31 ≤ op := by
  simp only [map_opcode_commandTable, List.mem_cons, List.not_mem_nil, or_false, not_or]
  bv_omega

/-- The two extra conditions of LD and ST (30_encoding.md R94). -/
theorem not_lacksSpace_and_not_overflowsBit_iff (row : TableRow) (w : Word32) :
    ¬ row.lacksSpace w ∧ ¬ row.overflowsBit w ↔
      (row.mnemonic = "LD" ∨ row.mnemonic = "ST" → (fieldSpace w).toNat ≤ 8) ∧
        (row.mnemonic = "ST" → (fieldSpace w = 2 ∨ fieldSpace w = 3) → (fieldImm8 w).toNat ≤ 1) := by
  simp only [row.lacksSpace_iff, row.overflowsBit_iff, not_and, not_le, Nat.lt_succ_iff]

/-- Settles O4: a word is a command when its row finds nothing wrong with it, and it fits no row but its own. -/
theorem wordMatchesItsTableRow : Obligations.WordMatchesItsTableRow := by
  unfold Obligations.WordMatchesItsTableRow
  refine ⟨fun w m => ?_, fun w r hr r' hr' hfit hfit' => (hasRow_of_fits hr hfit).unique (hasRow_of_fits hr' hfit')⟩
  simp only [exists_decode_eq_ok_iff, TableRow.verdict_eq_none_iff, not_lacksSpace_and_not_overflowsBit_iff,
    and_assoc, exists_hasRow_and_fits_iff]
  refine exists_congr fun row => and_congr_right fun _ => and_congr_right fun _ => ?_
  constructor
  · rintro ⟨hspace, hbit, rfl⟩
    exact ⟨rfl, hspace, hbit⟩
  · rintro ⟨rfl, hspace, hbit⟩
    exact ⟨hspace, hbit, rfl⟩

theorem decode_eq_mustBeZeroBit_iff (w : Word32) :
    decode w = .error .mustBeZeroBit ↔
      ∃ row ∈ commandTable, w &&& 0xFF000000 = row.pattern &&& 0xFF000000 ∧ w &&& row.mask ≠ row.pattern := by
  rw [decode_eq_error_iff w .mustBeZeroBit]
  simp only [TableRow.verdict_eq_mustBeZeroBit_iff, and_opcodeMask_eq_iff, HasRow, TableRow.opcode, and_assoc]

theorem decode_eq_noSuchSpace_iff (w : Word32) :
    decode w = .error .noSuchSpace ↔
      (w &&& 0xFF0FFFFF = 0x05000000 ∨ w &&& 0xFF0FFF00 = 0x06000000) ∧ 9 ≤ (fieldSpace w).toNat := by
  rw [decode_eq_error_iff w .noSuchSpace, or_and_right]
  simp only [TableRow.verdict_eq_noSuchSpace_iff, exists_hasRow_and_fits_iff, TableRow.lacksSpace_iff]
  simp [commandTable]

theorem decode_eq_notOneBit_iff (w : Word32) :
    decode w = .error .notOneBit ↔
      w &&& 0xFF0FFF00 = 0x06000000 ∧ (fieldSpace w = 2 ∨ fieldSpace w = 3) ∧ 2 ≤ (fieldImm8 w).toNat := by
  rw [decode_eq_error_iff w .notOneBit]
  simp only [TableRow.verdict_eq_notOneBit_iff, exists_hasRow_and_fits_iff, TableRow.overflowsBit_iff]
  simp [commandTable]

end Sys2Proof

namespace Sys2Proof.Machine

/-- Raising a fault with no other effect (60_exceptions.md R263). -/
theorem raiseFault_eq_faulted (code : FaultCode) (cmd : Word32) (s : State) :
    raiseFault code cmd s = .next (faulted s code.bits cmd) := by
  cases code <;> rfl

/-- Settles O5: the way in which a word is illegal is what its row says of it, or that it has none. -/
theorem illegalWordTakesTheFault : Obligations.IllegalWordTakesTheFault := by
  unfold Obligations.IllegalWordTakesTheFault
  refine ⟨fun w => ?_, decode_eq_mustBeZeroBit_iff, decode_eq_noSuchSpace_iff, decode_eq_notOneBit_iff,
    fun s w rest e hport hdec herr => ?_⟩
  · rw [decode_eq_unassignedOpcode_iff, exists_hasRow_iff, not_mem_map_opcode_iff]
  · rw [step_of_decode_error hport hdec, illegalWord, unlessLatched_of_clear (by exact herr), raiseFault_eq_faulted]
    rfl

end Sys2Proof.Machine
end

section
/-! PROOFS. The field GF(256) (40_gf_arithmetic.md R120 to R130). Bytes are embedded into the ring GF(2)[x]/(0x11D):
sums, products and powers of bytes become those of the ring, where the laws are Mathlib's. That 0x02 has order 255
there makes every non-zero byte exactly one of its powers. -/

-- One declaration at a time: the stacks of parallel elaboration can exceed the memory that the check allows.
set_option Elab.async false

namespace Sys2Proof.Machine

open Polynomial

/-! ## Bytes as polynomials over GF(2) (40_gf_arithmetic.md R120, R122) -/

/-- The polynomial that a byte stands for: bit i is the coefficient of x^i (40_gf_arithmetic.md R120). -/
noncomputable def polyOf (a : Byte) : (ZMod 2)[X] := ∑ i ∈ Finset.range 8, if a.getLsbD i then X ^ i else 0

/-- 0x11D (40_gf_arithmetic.md R122). -/
noncomputable def modulus : (ZMod 2)[X] := X ^ 8 + X ^ 4 + X ^ 3 + X ^ 2 + 1

theorem degree_modulus : modulus.degree = 8 := by
  unfold modulus
  compute_degree!

theorem modulus_eq_add_polyOf : modulus = X ^ 8 + polyOf 0x1D := by
  have hlow : polyOf 0x1D = 1 + X ^ 2 + X ^ 3 + X ^ 4 := by simp [polyOf, Finset.sum_range_succ]
  rw [modulus, hlow]
  ring

theorem coeff_polyOf (a : Byte) (i : Nat) : (polyOf a).coeff i = if a.getLsbD i then 1 else 0 := by
  have hterm : ∀ j, (if a.getLsbD j then X ^ j else 0 : (ZMod 2)[X]).coeff i =
      if i = j then (if a.getLsbD i then 1 else 0) else 0 := by
    intro j
    by_cases h : i = j
    · subst h
      split <;> simp
    · split <;> simp [coeff_X_pow, h]
  simp only [polyOf, finsetSum_coeff, hterm, Finset.sum_ite_eq, Finset.mem_range]
  by_cases hi : i < 8
  · simp [hi]
  · simp [hi, BitVec.getLsbD_of_ge a i (by omega)]

theorem degree_polyOf_lt (a : Byte) : (polyOf a).degree < 8 := by
  refine (degree_lt_iff_coeff_zero _ 8).2 fun i hi => ?_
  simp [coeff_polyOf, BitVec.getLsbD_of_ge a i hi]

theorem polyOf_xor (a b : Byte) : polyOf (a ^^^ b) = polyOf a + polyOf b := by
  ext i
  simp only [coeff_add, coeff_polyOf, BitVec.getLsbD_xor]
  cases a.getLsbD i <;> cases b.getLsbD i <;> decide

@[simp] theorem polyOf_zero : polyOf 0#8 = 0 := by
  simp [polyOf]

theorem eq_zero_of_polyOf_eq_zero {a : Byte} (h : polyOf a = 0) : a = 0 := by
  refine BitVec.eq_of_getLsbD_eq fun i _ => ?_
  have hi : (if a.getLsbD i then 1 else 0 : ZMod 2) = 0 := by rw [← coeff_polyOf, h, coeff_zero]
  simpa using hi

/-- A shift to the left multiplies by x, but for the bit that leaves the byte. -/
theorem polyOf_shiftLeft_one (a : Byte) :
    polyOf (a <<< 1) + (if a.getLsbD 7 then X ^ 8 else 0) = X * polyOf a := by
  simp [polyOf, Finset.sum_range_succ, mul_add, ← pow_succ', ← pow_two]

/-- Doubling in bits: a shift, and the low byte of the modulus when a bit leaves the byte (R122). -/
theorem xtime_eq_shiftLeft_xor : ∀ a : Byte, xtime a = (a <<< 1) ^^^ (if a.getLsbD 7 then 0x1D else 0) := by
  decide

/-- Doubling is multiplication by x, reduced once by the modulus when a bit leaves the byte (R122). -/
theorem polyOf_xtime (a : Byte) :
    polyOf (xtime a) + (if a.getLsbD 7 then modulus else 0) = X * polyOf a := by
  rw [← polyOf_shiftLeft_one, xtime_eq_shiftLeft_xor, polyOf_xor]
  split
  · linear_combination modulus_eq_add_polyOf + CharTwo.add_self_eq_zero (polyOf 0x1D)
  · simp

/-! ## Bytes as residues modulo 0x11D -/

/-- The class of a byte's polynomial modulo 0x11D. -/
noncomputable def residue (a : Byte) : AdjoinRoot modulus := AdjoinRoot.mk modulus (polyOf a)

/-- The class of the polynomial x. -/
noncomputable def alpha : AdjoinRoot modulus := AdjoinRoot.root modulus

theorem residue_xor (a b : Byte) : residue (a ^^^ b) = residue a + residue b := by
  simp [residue, polyOf_xor]

/-- Polynomials of degree below 8 are told apart modulo 0x11D. -/
theorem residue_injective : Function.Injective residue := by
  intro a b h
  have hmod : modulus ∣ polyOf (a ^^^ b) := by
    rw [polyOf_xor, ← CharTwo.sub_eq_add]
    exact AdjoinRoot.mk_eq_mk.1 h
  have hdeg : (polyOf (a ^^^ b)).degree < modulus.degree := degree_modulus ▸ degree_polyOf_lt _
  have hxor : a ^^^ b = 0 := eq_zero_of_polyOf_eq_zero (eq_zero_of_dvd_of_degree_lt hmod hdeg)
  simpa using hxor

@[simp] theorem residue_zero : residue 0#8 = 0 := by
  simp [residue]

@[simp] theorem residue_one : residue 1#8 = 1 := by
  simp [residue, polyOf]

@[simp] theorem residue_two : residue 2#8 = alpha := by
  simp [residue, polyOf, alpha, Finset.sum_range_succ]

theorem residue_eq_sum (a : Byte) : residue a = ∑ i ∈ Finset.range 8, if a.getLsbD i then alpha ^ i else 0 := by
  simp [residue, polyOf, alpha, apply_ite (AdjoinRoot.mk modulus)]

@[simp] theorem residue_xtime (a : Byte) : residue (xtime a) = alpha * residue a := by
  have h := congrArg (AdjoinRoot.mk modulus) (polyOf_xtime a)
  simpa [apply_ite (AdjoinRoot.mk modulus), residue, alpha] using h

/-- After n turns of the loop of R123, `p` is a·x^n and `r` is a times the lowest n bits of b. -/
theorem residue_foldl_gfMulStep (a b : Byte) (n : Nat) :
    residue ((List.range n).foldl (gfMulStep b) (0, a)).2 = residue a * alpha ^ n ∧
      residue ((List.range n).foldl (gfMulStep b) (0, a)).1 =
        residue a * ∑ i ∈ Finset.range n, if b.getLsbD i then alpha ^ i else 0 := by
  induction n with
  | zero => simp
  | succ n ih =>
    obtain ⟨hp, hr⟩ := ih
    rw [List.range_succ, List.foldl_append, List.foldl_cons, List.foldl_nil, Finset.sum_range_succ, gfMulStep]
    refine ⟨?_, ?_⟩
    · rw [residue_xtime, hp]
      ring
    · split <;> simp only [residue_xor, hp, hr, mul_add, add_zero]

@[simp] theorem residue_gfMul (a b : Byte) : residue (gfMul a b) = residue a * residue b := by
  rw [residue_eq_sum b]
  exact (residue_foldl_gfMulStep a b 8).2

/-- Settles O15: the residue of the product is the product of the residues. -/
theorem productIsReducedPolynomialProduct : Obligations.ProductIsReducedPolynomialProduct := by
  intro a b
  refine AdjoinRoot.mk_eq_mk.1 ?_
  rw [map_mul]
  exact (residue_gfMul a b).symm

/-! ## The powers of α (40_gf_arithmetic.md R122, R124) -/

@[simp] theorem residue_iterate_gfMul (a b : Byte) (n : Nat) :
    residue ((gfMul a)^[n] b) = residue a ^ n * residue b := by
  induction n with
  | zero => simp
  | succ n ih => rw [Function.iterate_succ_apply', residue_gfMul, ih, pow_succ', mul_assoc]

@[simp] theorem residue_alphaPow (n : Nat) : residue (alphaPow n) = alpha ^ n := by
  induction n with
  | zero => exact (residue_one).trans (pow_zero _).symm
  | succ n ih => rw [alphaPow, residue_xtime, ih, pow_succ']

theorem powAlpha_eq_alphaPow (n : Nat) : powAlpha n = alphaPow n :=
  residue_injective (by simp [powAlpha])

theorem alpha_pow_eq_one_iff (n : Nat) : alpha ^ n = 1 ↔ alphaPow n = 1 := by
  rw [← residue_alphaPow, ← residue_one]
  exact residue_injective.eq_iff

/-- α is primitive: its order is 255 = 3·5·17, since α^255 is 1 and α^85, α^51 and α^15 are not (R122). -/
theorem orderOf_alpha : orderOf alpha = 255 := by
  have hone : alpha ^ 255 = 1 := (alpha_pow_eq_one_iff 255).2 (by decide +kernel)
  refine orderOf_eq_of_pow_and_pow_div_prime (by decide) hone fun p hp hdvd => ?_
  have hfactor : p ∈ Nat.primeFactorsList 255 := (Nat.mem_primeFactorsList (by decide)).2 ⟨hp, hdvd⟩
  rw [ne_eq, alpha_pow_eq_one_iff]
  have hp : p = 3 ∨ p = 5 ∨ p = 17 := by simpa using hfactor
  rcases hp with rfl | rfl | rfl <;> decide +kernel

theorem alphaPow_injOn : Set.InjOn alphaPow (Set.Iio 255) := by
  intro i hi j hj h
  rw [← orderOf_alpha] at hi hj
  exact pow_injOn_Iio_orderOf hi hj (by simp only [← residue_alphaPow, h])

theorem alphaPow_mod (n : Nat) : alphaPow (n % 255) = alphaPow n :=
  residue_injective (by simp only [residue_alphaPow, ← orderOf_alpha, pow_mod_orderOf])

theorem gfExp_eq_alphaPow (n : Nat) : gfExp n = alphaPow n := alphaPow_mod n

theorem isUnit_alpha : IsUnit alpha :=
  (orderOf_pos_iff.1 (by rw [orderOf_alpha]; decide)).isUnit

theorem alphaPow_ne_zero (n : Nat) : alphaPow n ≠ 0 := by
  have : Nontrivial (AdjoinRoot modulus) := AdjoinRoot.nontrivial _ (by rw [degree_modulus]; decide)
  refine fun h => (isUnit_alpha.pow n).ne_zero ?_
  rw [← residue_alphaPow, h]
  exact residue_zero

/-- The 255 powers of α are as many as the non-zero bytes, so each of these is one of them (R122). -/
theorem exists_alphaPow_of_ne_zero {a : Byte} (ha : a ≠ 0) : ∃ i < 255, alphaPow i = a := by
  have hmaps : Set.MapsTo alphaPow (Finset.range 255) (Finset.univ.erase (0 : Byte)) := fun n _ => by
    simpa using alphaPow_ne_zero n
  have hinj : Set.InjOn alphaPow (Finset.range 255) := by
    simpa using alphaPow_injOn
  have hcard : (Finset.univ.erase (0 : Byte)).card ≤ (Finset.range 255).card := by
    simp [← FinEnum.card_eq_fintypeCard]
  simpa [ha] using Finset.surjOn_of_injOn_of_card_le alphaPow hmaps hinj hcard (show a ∈ _ by simpa using ha)

theorem isUnit_residue {a : Byte} (ha : a ≠ 0) : IsUnit (residue a) := by
  obtain ⟨i, -, rfl⟩ := exists_alphaPow_of_ne_zero ha
  rw [residue_alphaPow]
  exact isUnit_alpha.pow i

/-! ## The laws of the product (40_gf_arithmetic.md R129) -/

theorem gfMul_comm (a b : Byte) : gfMul a b = gfMul b a :=
  residue_injective (by simp [mul_comm])

theorem gfMul_assoc (a b c : Byte) : gfMul (gfMul a b) c = gfMul a (gfMul b c) :=
  residue_injective (by simp [mul_assoc])

theorem gfMul_xor (a b c : Byte) : gfMul a (b ^^^ c) = gfMul a b ^^^ gfMul a c :=
  residue_injective (by simp [residue_xor, mul_add])

@[simp] theorem gfMul_one (a : Byte) : gfMul a 1#8 = a :=
  residue_injective (by simp)

@[simp] theorem gfMul_zero (a : Byte) : gfMul a 0#8 = 0#8 :=
  residue_injective (by simp)

@[simp] theorem one_gfMul (a : Byte) : gfMul 1#8 a = a := by
  rw [gfMul_comm, gfMul_one]

@[simp] theorem zero_gfMul (a : Byte) : gfMul 0#8 a = 0#8 := by
  rw [gfMul_comm, gfMul_zero]

theorem gfMul_alphaPow (i j : Nat) : gfMul (alphaPow i) (alphaPow j) = alphaPow (i + j) :=
  residue_injective (by simp [pow_add])

/-- A non-zero factor can be cancelled. -/
theorem gfMul_right_cancel {a p q : Byte} (ha : a ≠ 0) (h : gfMul p a = gfMul q a) : p = q :=
  residue_injective ((isUnit_residue ha).mul_right_cancel (by simpa using congrArg residue h))

theorem gfMul_eq_zero_iff (a b : Byte) : gfMul a b = 0 ↔ a = 0 ∨ b = 0 := by
  constructor
  · exact fun h => or_iff_not_imp_right.2 fun hb => gfMul_right_cancel hb (h.trans (zero_gfMul b).symm)
  · rintro (rfl | rfl)
    · exact zero_gfMul b
    · exact gfMul_zero a

theorem iterate_gfMul_255 {a : Byte} (ha : a ≠ 0) : (gfMul a)^[255] 1#8 = 1#8 := by
  obtain ⟨i, -, rfl⟩ := exists_alphaPow_of_ne_zero ha
  refine residue_injective ?_
  rw [residue_iterate_gfMul, residue_one, residue_alphaPow, mul_one, pow_right_comm, ← orderOf_alpha,
    pow_orderOf_eq_one, one_pow]

/-! ## The log (40_gf_arithmetic.md R125) -/

/-- The search finds the exponent of a power of α that lies in its range. -/
theorem findLog_alphaPow {i n fuel : Nat} (hi : i < 255) (hn : n ≤ i) (hf : i < n + fuel) :
    findLog (alphaPow i) fuel n (alphaPow n) = some i := by
  induction fuel generalizing n with
  | zero => omega
  | succ fuel ih =>
    rw [findLog]
    split
    next h => rw [alphaPow_injOn (hn.trans_lt hi) hi h]
    next h =>
      have hne : n ≠ i := fun e => h (congrArg alphaPow e)
      exact ih (n := n + 1) (by omega) (by omega)

theorem gfLog_alphaPow {i : Nat} (hi : i < 255) : gfLog (alphaPow i) = some i :=
  findLog_alphaPow hi i.zero_le (by omega)

theorem findLog_zero (fuel n : Nat) : findLog 0 fuel n (alphaPow n) = none := by
  induction fuel generalizing n with
  | zero => rfl
  | succ fuel ih => rw [findLog, if_neg (alphaPow_ne_zero n)]; exact ih (n + 1)

@[simp] theorem gfLog_zero : gfLog 0#8 = none := findLog_zero 255 0

/-- The log is the exponent in 0..254. -/
theorem gfLog_eq_some_iff (a : Byte) (i : Nat) : gfLog a = some i ↔ i < 255 ∧ alphaPow i = a := by
  refine ⟨fun h => ?_, fun ⟨hi, ha⟩ => ha ▸ gfLog_alphaPow hi⟩
  have ha : a ≠ 0 := by
    rintro rfl
    cases gfLog_zero.symm.trans h
  obtain ⟨j, hj, rfl⟩ := exists_alphaPow_of_ne_zero ha
  obtain rfl : j = i := Option.some.inj ((gfLog_alphaPow hj).symm.trans h)
  exact ⟨hj, rfl⟩

theorem exists_gfLog_of_ne_zero {a : Byte} (ha : a ≠ 0) : ∃ i < 255, gfLog a = some i ∧ alphaPow i = a := by
  obtain ⟨i, hi, hia⟩ := exists_alphaPow_of_ne_zero ha
  exact ⟨i, hi, (gfLog_eq_some_iff a i).2 ⟨hi, hia⟩, hia⟩

/-! ## The inverse and the quotient (40_gf_arithmetic.md R127, R128) -/

theorem gfInv_of_gfLog {a : Byte} {i : Nat} (h : gfLog a = some i) : gfInv a = some (alphaPow (255 - i)) := by
  simp [gfInv, h, gfExp_eq_alphaPow]

@[simp] theorem gfInv_zero : gfInv 0#8 = none := by
  simp [gfInv]

theorem gfDiv_of_gfLog {a b : Byte} {i j : Nat} (ha : gfLog a = some i) (hb : gfLog b = some j) :
    gfDiv a b = some (alphaPow (i + 255 - j)) := by
  simp [gfDiv, ha, hb, gfExp_eq_alphaPow]

@[simp] theorem gfDiv_zero (a : Byte) : gfDiv a 0#8 = none := by
  simp [gfDiv]

theorem zero_gfDiv {b : Byte} (hb : b ≠ 0) : gfDiv 0 b = some 0 := by
  obtain ⟨j, -, hj, -⟩ := exists_gfLog_of_ne_zero hb
  simp [gfDiv, hj]

theorem exists_gfInv {a : Byte} (ha : a ≠ 0) : ∃ x, gfInv a = some x ∧ gfMul a x = 1 := by
  obtain ⟨i, hi, hlog, rfl⟩ := exists_gfLog_of_ne_zero ha
  refine ⟨_, gfInv_of_gfLog hlog, ?_⟩
  rw [gfMul_alphaPow, Nat.add_sub_cancel' hi.le]
  exact (alphaPow_mod 255).symm

theorem exists_gfDiv (a : Byte) {b : Byte} (hb : b ≠ 0) : ∃ q, gfDiv a b = some q ∧ gfMul q b = a := by
  by_cases ha : a = 0
  · subst ha
    exact ⟨0, zero_gfDiv hb, zero_gfMul b⟩
  · obtain ⟨i, -, hi, rfl⟩ := exists_gfLog_of_ne_zero ha
    obtain ⟨j, hj255, hj, rfl⟩ := exists_gfLog_of_ne_zero hb
    refine ⟨_, gfDiv_of_gfLog hi hj, ?_⟩
    rw [gfMul_alphaPow, Nat.sub_add_cancel (by omega), ← alphaPow_mod, Nat.add_mod_right, alphaPow_mod]

/-- The quotient is the one byte whose product with the divisor is the dividend. -/
theorem gfDiv_eq_some_iff (a b q : Byte) : gfDiv a b = some q ↔ b ≠ 0 ∧ gfMul q b = a := by
  by_cases hb : b = 0
  · subst hb
    simp
  · obtain ⟨p, hp, hmul⟩ := exists_gfDiv a hb
    rw [hp, Option.some_inj]
    exact ⟨fun h => ⟨hb, h ▸ hmul⟩, fun ⟨_, hq⟩ => gfMul_right_cancel hb (hmul.trans hq.symm)⟩

/-- The inverse is the one byte whose product with the operand is 0x01. -/
theorem gfInv_eq_some_iff (a x : Byte) : gfInv a = some x ↔ gfMul a x = 1 := by
  by_cases ha : a = 0
  · subst ha
    simp
  · obtain ⟨y, hy, hmul⟩ := exists_gfInv ha
    rw [hy, Option.some_inj]
    refine ⟨fun h => h ▸ hmul, fun hx => gfMul_right_cancel ha ?_⟩
    rw [gfMul_comm, hmul, gfMul_comm, hx]

/-! ## The laws of the field -/

/-- Settles O16: the laws of the product are those of the ring, the others follow from the log. -/
theorem fieldLawsHold : Obligations.FieldLawsHold := by
  unfold Obligations.FieldLawsHold
  refine ⟨fun a b c => ⟨BitVec.xor_comm a b, gfMul_comm a b, gfMul_assoc a b c, gfMul_xor a b c, gfMul_one a,
    gfMul_zero a, (gfMul_eq_zero_iff a b).1, fun ha => ⟨?_, ?_, iterate_gfMul_255 ha⟩, exists_gfDiv a⟩,
    fun i hi => ?_, gfLog_zero, gfInv_zero, gfDiv_zero⟩
  · obtain ⟨x, hx, hmul⟩ := exists_gfInv ha
    exact ⟨x, hx, hmul, (gfInv_eq_some_iff x a).2 (gfMul_comm x a ▸ hmul)⟩
  · obtain ⟨i, -, hlog, hi⟩ := exists_gfLog_of_ne_zero ha
    exact ⟨i, hlog, (gfExp_eq_alphaPow i).trans hi⟩
  · rw [gfExp_eq_alphaPow, gfLog_alphaPow hi]

/-- Settles O17: the log exists, and below 255 the powers of α differ. -/
theorem logIsTheExponent : Obligations.LogIsTheExponent := by
  unfold Obligations.LogIsTheExponent
  simp only [powAlpha_eq_alphaPow]
  refine ⟨(alphaPow_mod 255).symm, gfLog_zero, fun a ha => ?_⟩
  obtain ⟨i, hi, hlog, rfl⟩ := exists_gfLog_of_ne_zero ha
  exact ⟨i, hi, hlog, rfl, fun j hj h => alphaPow_injOn hj hi h⟩

/-- Settles O18: operands that have a log are powers of α. -/
theorem tablesGiveProductInverseAndQuotient : Obligations.TablesGiveProductInverseAndQuotient := by
  unfold Obligations.TablesGiveProductInverseAndQuotient
  refine ⟨fun a b i j ha hb => ?_, fun a b => (gfMul_eq_zero_iff a b).2, gfInv_eq_some_iff, fun a b x hx => ?_,
    gfDiv_eq_some_iff, (gfInv_eq_some_iff 1 1).2 (gfMul_one 1), gfInv_zero, gfDiv_zero⟩
  · obtain ⟨-, rfl⟩ := (gfLog_eq_some_iff a i).1 ha
    obtain ⟨-, rfl⟩ := (gfLog_eq_some_iff b j).1 hb
    simp only [gfExp_eq_alphaPow, alphaPow_mod]
    exact ⟨gfMul_alphaPow i j, gfInv_of_gfLog ha, gfDiv_of_gfLog ha hb⟩
  · have hmul := (gfInv_eq_some_iff b x).1 hx
    have hb : b ≠ 0 := by
      rintro rfl
      cases gfInv_zero.symm.trans hx
    refine (gfDiv_eq_some_iff a b _).2 ⟨hb, ?_⟩
    rw [gfMul_assoc, gfMul_comm x b, hmul]
    exact gfMul_one a

end Sys2Proof.Machine
end

section
/-! PROOFS. The field commands (40_gf_arithmetic.md R131 to R140): their words, what a written register and GFZero leave
of the state, and what each command writes. -/

-- One declaration at a time: the stacks of parallel elaboration can exceed the memory that the check allows.
set_option Elab.async false

namespace Sys2Proof

/-! ## Words put together of disjoint fields (30_encoding.md R91) -/

/-- A field placed below bits that the word so far leaves zero is added to it. -/
theorem toNat_or_place {n lo : Nat} (w : Word32) (v : BitVec n) (hn : n + lo ≤ 32)
    (hw : w.toNat % 2 ^ (n + lo) = 0) : (w ||| place v lo).toNat = w.toNat + v.toNat * 2 ^ lo := by
  have hv : v.toNat * 2 ^ lo < 2 ^ (n + lo) := by
    rw [Nat.pow_add]
    exact Nat.mul_lt_mul_of_pos_right v.isLt (Nat.two_pow_pos lo)
  have hplace : (place v lo).toNat = v.toNat * 2 ^ lo := by
    have h32 : 2 ^ (n + lo) ≤ 2 ^ 32 := Nat.pow_le_pow_right (by decide) hn
    rw [place, BitVec.toNat_shiftLeft, BitVec.toNat_setWidth_of_le (by omega), Nat.shiftLeft_eq,
      Nat.mod_eq_of_lt (hv.trans_le h32)]
  obtain ⟨k, hk⟩ := Nat.dvd_of_mod_eq_zero hw
  rw [BitVec.toNat_or, hplace, hk, Nat.two_pow_add_eq_or_of_lt hv]

section Fields
variable (op : Word32) (hop : op.toNat % 0x1000000 = 0) (rd ra rb : Reg)
include hop

theorem toNat_or_place_rd : (op ||| place rd 20).toNat = op.toNat + rd.toNat * 0x100000 :=
  toNat_or_place op rd (by decide) hop

theorem toNat_or_place_rd_ra :
    (op ||| place rd 20 ||| place ra 16).toNat = op.toNat + rd.toNat * 0x100000 + ra.toNat * 0x10000 := by
  have h := toNat_or_place_rd op hop rd
  rw [toNat_or_place _ ra (by decide) (by omega)]
  omega

theorem toNat_or_place_rd_ra_rb :
    (op ||| place rd 20 ||| place ra 16 ||| place rb 12).toNat =
      op.toNat + rd.toNat * 0x100000 + ra.toNat * 0x10000 + rb.toNat * 0x1000 := by
  have h := toNat_or_place_rd_ra op hop rd ra
  rw [toNat_or_place _ rb (by decide) (by omega)]
  omega

theorem toNat_or_place_rd_imm8 (imm8 : Byte) :
    (op ||| place rd 20 ||| place imm8 0).toNat = op.toNat + rd.toNat * 0x100000 + imm8.toNat := by
  have h := toNat_or_place_rd op hop rd
  rw [toNat_or_place _ imm8 (by decide) (by omega)]
  omega

end Fields

end Sys2Proof

namespace Sys2Proof.Machine

/-! ## The ends of the field commands -/

/-- The response of a command that succeeds is its data (30_encoding.md R93). -/
theorem responseWord_success (d : BitVec 24) : responseWord false 0 d = d.setWidth 32 := by
  have hzero : BitVec.ofBool false ++ (0 : BitVec 7) = 0#8 := rfl
  rw [responseWord, hzero]
  exact (BitVec.setWidth_eq_append (by decide)).symm

theorem exists_writeAndRespond (s : State) (rd : Reg) (v : Byte) :
    ∃ t, writeAndRespond s rd v = .next t ∧ WritesReg s t rd v :=
  ⟨_, rfl, rfl, fun _ _ => rfl, fun r => readReg_writeReg s rd r v⟩

theorem exists_writeOrGfZero_of_some (s : State) (cmd : Word32) (rd : Reg) {o : Option Byte} {v : Byte}
    (h : o = some v) : ∃ t, writeOrGfZero s cmd rd o = .next t ∧ WritesReg s t rd v := by
  rw [h]
  exact exists_writeAndRespond s rd v

theorem writeOrGfZero_of_none (s : State) (cmd : Word32) (rd : Reg) {o : Option Byte} (h : o = none) :
    writeOrGfZero s cmd rd o = .next (faulted s 0x04 cmd) := by
  rw [h]
  exact raiseFault_eq_faulted .gfZero cmd s

theorem WritesReg.readReg_rd {s t : State} {rd : Reg} {v : Byte} (h : WritesReg s t rd v) : readReg t rd = v := by
  obtain ⟨-, -, hreg⟩ := h
  rw [hreg, if_pos rfl]

/-! ## The field commands while no error is latched -/

section Clear
variable {s : State} (hs : s.err = false) (rd ra rb : Reg)
include hs

theorem exec_gfli_of_clear (imm8 : Byte) : exec (.gfli rd imm8) s = writeAndRespond s rd imm8 := by
  rw [exec, execGfli, unlessLatched_of_clear hs]

theorem exec_gfmv_of_clear : exec (.gfmv rd ra) s = writeAndRespond s rd (readReg s ra) := by
  rw [exec, execGfmv, unlessLatched_of_clear hs]

theorem exec_gfrd_of_clear : exec (.gfrd ra) s = respond s ((readReg s ra).setWidth 24) := by
  rw [exec, execGfrd, unlessLatched_of_clear hs]

theorem exec_gfadd_of_clear :
    exec (.gfadd rd ra rb) s = writeAndRespond s rd (readReg s ra ^^^ readReg s rb) := by
  rw [exec, execGfadd, unlessLatched_of_clear hs]

theorem exec_gfmul_of_clear :
    exec (.gfmul rd ra rb) s = writeAndRespond s rd (gfMul (readReg s ra) (readReg s rb)) := by
  rw [exec, execGfmul, unlessLatched_of_clear hs]

theorem exec_gfdiv_of_clear :
    exec (.gfdiv rd ra rb) s =
      writeOrGfZero s (encode (.gfdiv rd ra rb)) rd (gfDiv (readReg s ra) (readReg s rb)) := by
  rw [exec, execGfdiv, unlessLatched_of_clear hs]

theorem exec_gfinv_of_clear :
    exec (.gfinv rd ra) s = writeOrGfZero s (encode (.gfinv rd ra)) rd (gfInv (readReg s ra)) := by
  rw [exec, execGfinv, unlessLatched_of_clear hs]

theorem exec_gfexp_of_clear : exec (.gfexp rd ra) s = writeAndRespond s rd (gfExp (readReg s ra).toNat) := by
  rw [exec, execGfexp, unlessLatched_of_clear hs]

theorem exec_gflog_of_clear :
    exec (.gflog rd ra) s =
      writeOrGfZero s (encode (.gflog rd ra)) rd ((gfLog (readReg s ra)).map (BitVec.ofNat 8)) := by
  rw [exec, execGflog, unlessLatched_of_clear hs]

end Clear

/-! ## The commands without a fault -/

/-- Settles O19: both end by writing a register. -/
theorem gfliAndGfmvLoadARegister : Obligations.GfliAndGfmvLoadARegister := by
  unfold Obligations.GfliAndGfmvLoadARegister
  refine ⟨fun rd imm8 => ⟨toNat_or_place_rd_imm8 0x10000000 (by decide) rd imm8, fun s hs => ?_⟩,
    fun rd ra => ⟨toNat_or_place_rd_ra 0x11000000 (by decide) rd ra, fun s hs => ?_⟩⟩
  · rw [exec_gfli_of_clear hs]
    exact exists_writeAndRespond s rd imm8
  · rw [exec_gfmv_of_clear hs]
    exact exists_writeAndRespond s rd _

/-- Settles O20: the register is zero-extended to the 24 bits of data, and these to the response word. -/
theorem gfrdReturnsARegister : Obligations.GfrdReturnsARegister := by
  unfold Obligations.GfrdReturnsARegister
  refine fun ra => ⟨toNat_or_place 0x12000000 ra (by decide) (by decide), fun s hs => ?_⟩
  rw [exec_gfrd_of_clear hs, respond, responseWord_success, BitVec.setWidth_setWidth (by decide), deliver]

/-- Settles O21: it ends by writing a register. -/
theorem gfaddAddsInTheField : Obligations.GfaddAddsInTheField := by
  unfold Obligations.GfaddAddsInTheField
  refine fun rd ra rb => ⟨toNat_or_place_rd_ra_rb 0x18000000 (by decide) rd ra rb, fun s hs => ?_⟩
  rw [exec_gfadd_of_clear hs]
  exact exists_writeAndRespond s rd _

/-- Settles O22: the corner cases are the laws of the product. -/
theorem gfmulMultipliesInTheField : Obligations.GfmulMultipliesInTheField := by
  unfold Obligations.GfmulMultipliesInTheField
  refine fun rd ra rb => ⟨toNat_or_place_rd_ra_rb 0x19000000 (by decide) rd ra rb, fun s hs => ?_⟩
  obtain ⟨t, ht, hw⟩ := exists_writeAndRespond s rd (gfMul (readReg s ra) (readReg s rb))
  refine ⟨t, (exec_gfmul_of_clear hs rd ra rb).trans ht, hw, ?_⟩
  rw [hw.readReg_rd]
  exact ⟨gfMul_eq_zero_iff _ _, fun h => h ▸ gfMul_one _, fun h => h ▸ one_gfMul _⟩

/-- Settles O25: the exponent counts modulo 255, and no power of α is zero. -/
theorem gfexpRaisesAlpha : Obligations.GfexpRaisesAlpha := by
  unfold Obligations.GfexpRaisesAlpha
  refine fun rd ra => ⟨toNat_or_place_rd_ra 0x1C000000 (by decide) rd ra, fun s hs => ?_⟩
  obtain ⟨t, ht, hw⟩ := exists_writeAndRespond s rd (powAlpha (readReg s ra).toNat)
  rw [exec_gfexp_of_clear hs, gfExp_eq_alphaPow, ← powAlpha_eq_alphaPow]
  refine ⟨t, ht, hw, ?_⟩
  rw [hw.readReg_rd, powAlpha_eq_alphaPow]
  exact alphaPow_ne_zero _

/-! ## The commands with an undefined point (40_gf_arithmetic.md R131 (d)) -/

/-- Settles O23: the quotient exists for a non-zero divisor. -/
theorem gfdivDividesOrFaults : Obligations.GfdivDividesOrFaults := by
  unfold Obligations.GfdivDividesOrFaults
  refine fun rd ra rb => ⟨toNat_or_place_rd_ra_rb 0x1A000000 (by decide) rd ra rb, fun s hs => ?_⟩
  rw [exec_gfdiv_of_clear hs]
  refine ⟨fun hb => ?_, fun hb => ?_⟩
  · obtain ⟨q, hq, hmul⟩ := exists_gfDiv (readReg s ra) hb
    obtain ⟨t, ht, hw⟩ := exists_writeOrGfZero_of_some s (encode (.gfdiv rd ra rb)) rd hq
    exact ⟨t, q, ht, hw, hmul⟩
  · exact writeOrGfZero_of_none s _ rd (hb ▸ gfDiv_zero _)

/-- Settles O24: the inverse exists for a non-zero operand. -/
theorem gfinvInvertsOrFaults : Obligations.GfinvInvertsOrFaults := by
  unfold Obligations.GfinvInvertsOrFaults
  refine fun rd ra => ⟨toNat_or_place_rd_ra 0x1B000000 (by decide) rd ra, fun s hs => ?_⟩
  rw [exec_gfinv_of_clear hs]
  refine ⟨fun ha => ?_, fun ha => ?_⟩
  · obtain ⟨x, hx, hmul⟩ := exists_gfInv ha
    obtain ⟨t, ht, hw⟩ := exists_writeOrGfZero_of_some s (encode (.gfinv rd ra)) rd hx
    exact ⟨t, x, ht, hw, hmul⟩
  · exact writeOrGfZero_of_none s _ rd (ha ▸ gfInv_zero)

/-- Settles O26: an exponent below 255 fits the register. -/
theorem gflogFindsTheExponentOrFaults : Obligations.GflogFindsTheExponentOrFaults := by
  unfold Obligations.GflogFindsTheExponentOrFaults
  refine fun rd ra => ⟨toNat_or_place_rd_ra 0x1D000000 (by decide) rd ra, fun s hs => ?_⟩
  rw [exec_gflog_of_clear hs]
  refine ⟨fun ha => ?_, fun ha => ?_⟩
  · obtain ⟨i, hi, hlog, hpow⟩ := exists_gfLog_of_ne_zero ha
    obtain ⟨t, ht, hw⟩ :=
      exists_writeOrGfZero_of_some s (encode (.gflog rd ra)) rd (congrArg (Option.map (BitVec.ofNat 8)) hlog)
    have hval : (BitVec.ofNat 8 i).toNat = i := by
      rw [BitVec.toNat_ofNat]
      omega
    exact ⟨t, _, ht, hw, hval.symm ▸ hi, by rw [hval, powAlpha_eq_alphaPow, hpow]⟩
  · exact writeOrGfZero_of_none s _ rd (Option.map_eq_none_iff.2 (ha ▸ gfLog_zero))

end Sys2Proof.Machine
end

section
/-! PROOFS. The binarizer (41_binarizer.md R160 to R169): the checks of BINRUN, the partition of the image into cells,
the thresholds, and what BINRUN writes. -/

-- One declaration at a time: the stacks of parallel elaboration can exceed the memory that the check allows.
set_option Elab.async false

namespace Sys2Proof.Machine

/-! ## The checks of BINRUN (41_binarizer.md R162) -/

theorem imageTooLarge_iff (s : State) : imageTooLarge s = true ↔ TooLarge s := by
  simp [imageTooLarge, TooLarge, or_assoc]

theorem binBadParameter_iff (s : State) : binBadParameter s = true ↔ BinrunBad s := by
  have hzero (v : BitVec 16) : v.toNat = 0 ↔ v = 0 := BitVec.toNat_inj (y := 0)
  simp [binBadParameter, BinrunBad, or_assoc, hzero]

theorem failBinrun_eq_faulted (code : FaultCode) (cmd : Word32) (s : State) :
    failBinrun code cmd s = .next (faulted { s with binok := false } code.bits cmd) :=
  raiseFault_eq_faulted code cmd (setBinok s false)

section Clear
variable {s : State} (hs : s.err = false)
include hs

theorem exec_binrun_of_tooLarge (hl : TooLarge s) :
    exec .binrun s = .next (faulted { s with binok := false } 0x10 (encode .binrun)) := by
  rw [exec, execBinrun, unlessLatched_of_clear hs, if_pos ((imageTooLarge_iff s).2 hl)]
  exact failBinrun_eq_faulted .imageTooLarge _ s

theorem exec_binrun_of_bad (hl : ¬ TooLarge s) (hb : BinrunBad s) :
    exec .binrun s = .next (faulted { s with binok := false } 0x05 (encode .binrun)) := by
  rw [exec, execBinrun, unlessLatched_of_clear hs, if_neg (mt (imageTooLarge_iff s).1 hl),
    if_pos ((binBadParameter_iff s).2 hb)]
  exact failBinrun_eq_faulted .badParameter _ s

theorem exec_binrun_of_good (hl : ¬ TooLarge s) (hb : ¬ BinrunBad s) :
    exec .binrun s = .next { binarize s with binok := true, rspOut := s.rspOut ++ [0] } := by
  rw [exec, execBinrun, unlessLatched_of_clear hs, if_neg (mt (imageTooLarge_iff s).1 hl),
    if_neg (mt (binBadParameter_iff s).1 hb), endBinrun, respond, responseWord_success]
  rfl

end Clear

/-- Settles O37: each check is one branch of BINRUN. -/
theorem binrunChecksItsParameters : Obligations.BinrunChecksItsParameters := by
  unfold Obligations.BinrunChecksItsParameters
  exact ⟨rfl, fun s hs => ⟨exec_binrun_of_tooLarge hs, exec_binrun_of_bad hs⟩⟩

/-! ## The partition (41_binarizer.md R164) -/

/-- The first pixel column of cell column `c`: the least x with c·W ≤ x·K. -/
def columnStart (w k c : Nat) : Nat := (c * w) ⌈/⌉ k

section Columns
variable {w k : Nat} (hk : 0 < k)
include hk

theorem columnStart_le_iff (c x : Nat) : columnStart w k c ≤ x ↔ c * w ≤ x * k := by
  rw [columnStart, ceilDiv_le_iff_le_mul hk, Nat.mul_comm k x]

/-- A cell column is a run of pixel columns: from its own start to the next one's. -/
theorem column_eq_iff (hw : 0 < w) (x c : Nat) :
    x * k / w = c ↔ columnStart w k c ≤ x ∧ x < columnStart w k (c + 1) := by
  rw [Nat.div_eq_iff hw, columnStart_le_iff hk, ← not_le, columnStart_le_iff hk, Nat.add_mul, Nat.one_mul]
  omega

theorem columnStart_mul_bounds (c : Nat) :
    c * w ≤ columnStart w k c * k ∧ columnStart w k c * k < c * w + k := by
  refine ⟨(columnStart_le_iff hk c _).1 le_rfl, ?_⟩
  rcases Nat.eq_zero_or_pos (columnStart w k c) with h0 | hpos
  · rw [h0]
    omega
  · have hless : ¬ columnStart w k c ≤ columnStart w k c - 1 := by omega
    rw [columnStart_le_iff hk, Nat.sub_mul] at hless
    omega

theorem columnStart_le_width {c : Nat} (hc : c ≤ k) : columnStart w k c ≤ w := by
  rw [columnStart_le_iff hk, Nat.mul_comm w k]
  exact Nat.mul_le_mul_right w hc

theorem columnStart_of_dvd (hdvd : k ∣ w) (c : Nat) : columnStart w k c = c * (w / k) := by
  obtain ⟨d, rfl⟩ := hdvd
  refine eq_of_forall_ge_iff fun x => ?_
  rw [columnStart_le_iff hk, Nat.mul_div_cancel_left d hk, Nat.mul_left_comm, Nat.mul_comm x k]
  exact Nat.mul_le_mul_left_iff hk

/-- Because W ≥ K, every cell column has a pixel column: its start. -/
theorem exists_column_eq (hkw : k ≤ w) {c : Nat} (hc : c < k) : ∃ x, x < w ∧ x * k / w = c := by
  have hw : 0 < w := hk.trans_le hkw
  have hnext : columnStart w k c < columnStart w k (c + 1) := by
    obtain ⟨hlow, -⟩ := columnStart_mul_bounds (w := w) hk (c + 1)
    obtain ⟨-, hhigh⟩ := columnStart_mul_bounds (w := w) hk c
    rw [Nat.add_mul, Nat.one_mul] at hlow
    exact lt_of_mul_lt_mul_right (by omega : columnStart w k c * k < columnStart w k (c + 1) * k) k.zero_le
  exact ⟨_, hnext.trans_le (columnStart_le_width hk hc), (column_eq_iff hk hw _ c).2 ⟨le_rfl, hnext⟩⟩

theorem length_column_eq (hw : 0 < w) {c : Nat} (hc : c < k) :
    ((List.range w).filter (fun x => decide (x * k / w = c))).length =
      columnStart w k (c + 1) - columnStart w k c := by
  have hend : columnStart w k (c + 1) ≤ w := columnStart_le_width hk hc
  have hrun : (Finset.range w).filter (fun x => x * k / w = c) =
      Finset.Ico (columnStart w k c) (columnStart w k (c + 1)) := by
    ext x
    rw [Finset.mem_filter, Finset.mem_range, Finset.mem_Ico, column_eq_iff hk hw]
    omega
  rw [← List.countP_eq_length_filter, ← Nat.card_Ico, ← hrun, ← Nat.count_eq_card_filter_range, Nat.count]

theorem columnStart_sub_bounds (c : Nat) :
    w / k ≤ columnStart w k (c + 1) - columnStart w k c ∧
      columnStart w k (c + 1) - columnStart w k c ≤ w / k + 1 := by
  obtain ⟨hlow, hhigh⟩ := columnStart_mul_bounds (w := w) hk c
  obtain ⟨hlow', hhigh'⟩ := columnStart_mul_bounds (w := w) hk (c + 1)
  rw [Nat.add_mul, Nat.one_mul] at hlow' hhigh'
  have hmul := Nat.sub_mul (columnStart w k (c + 1)) (columnStart w k c) k
  constructor
  · rw [← Nat.lt_succ_iff, Nat.div_lt_iff_lt_mul hk, Nat.succ_mul]
    omega
  · rw [← Nat.sub_le_iff_le_add, Nat.le_div_iff_mul_le hk, Nat.sub_mul]
    omega

end Columns

theorem cellIndex_lt {w h k x y : Nat} (hk : 0 < k) (hx : x < w) (hy : y < h) :
    cellIndex w h k x y < k * k := by
  have hcol : x * k / w < k := Nat.div_lt_of_lt_mul (Nat.mul_lt_mul_of_pos_right hx hk)
  have hrow : y * k / h < k := Nat.div_lt_of_lt_mul (Nat.mul_lt_mul_of_pos_right hy hk)
  have hrows : (y * k / h + 1) * k ≤ k * k := Nat.mul_le_mul_right k hrow
  rw [Nat.add_mul, Nat.one_mul] at hrows
  rw [cellIndex]
  omega

/-- Because W ≥ K and H ≥ K, every cell contains at least one pixel. -/
theorem exists_cellIndex_eq {w h k j : Nat} (hk : 0 < k) (hkw : k ≤ w) (hkh : k ≤ h) (hj : j < k * k) :
    ∃ x y, x < w ∧ y < h ∧ cellIndex w h k x y = j := by
  obtain ⟨x, hx, hcol⟩ := exists_column_eq hk hkw (Nat.mod_lt j hk)
  obtain ⟨y, hy, hrow⟩ := exists_column_eq hk hkh (Nat.div_lt_of_lt_mul hj)
  refine ⟨x, y, hx, hy, ?_⟩
  rw [cellIndex, hcol, hrow, Nat.mul_comm, Nat.div_add_mod]

/-- Settles O39: a cell column is the run of pixel columns between two neighbouring starts. -/
theorem partitionCoversTheImage : Obligations.PartitionCoversTheImage := by
  unfold Obligations.PartitionCoversTheImage
  intro w h k hk hkw hkh
  have hw : 0 < w := hk.trans hkw
  refine ⟨fun x y => cellIndex_lt hk, fun j hj => exists_cellIndex_eq hk hkw hkh hj,
    fun hdvd x cx => ?_, fun cx hcx => ?_⟩
  · rw [column_eq_iff hk hw, columnStart_of_dvd hk hdvd, columnStart_of_dvd hk hdvd]
  · rw [length_column_eq hk hw hcx]
    exact columnStart_sub_bounds hk cx

/-! ## Pixels and cells (41_binarizer.md R163, R164) -/

section Pixels
variable {s : State}

theorem mem_pixels_iff {p : Nat} : p ∈ pixels s ↔ p < s.img.w.toNat * s.img.h.toNat := List.mem_range

theorem pixelIndex_lt {x y : Nat} (hx : x < s.img.w.toNat) (hy : y < s.img.h.toNat) :
    y * s.img.w.toNat + x < s.img.w.toNat * s.img.h.toNat := by
  have hrows := Nat.mul_le_mul_left s.img.w.toNat (Nat.succ_le_of_lt hy)
  rw [Nat.mul_succ, Nat.mul_comm _ y] at hrows
  omega

theorem cellOfPixel_pixelIndex {x : Nat} (hx : x < s.img.w.toNat) (y : Nat) :
    cellOfPixel s (y * s.img.w.toNat + x) =
      cellIndex s.img.w.toNat s.img.h.toNat s.img.cells.toNat x y := by
  rw [cellOfPixel, Nat.mul_comm y, Nat.mul_add_mod, Nat.mod_eq_of_lt hx, Nat.mul_add_div (by omega),
    Nat.div_eq_of_lt hx, Nat.add_zero]

theorem inCell_iff (j x y : Nat) :
    InCell s j x y ↔
      x < s.img.w.toNat ∧ y < s.img.h.toNat ∧ cellOfPixel s (y * s.img.w.toNat + x) = j :=
  and_congr_right fun hx => by rw [cellOfPixel_pixelIndex hx, cellIndex]

theorem lum_pixelIndex (x y : Nat) : lum s (y * s.img.w.toNat + x) = luminance s x y := by
  have hzero : s.img.pxfmt.toNat = 0 ↔ s.img.pxfmt = 0 := BitVec.toNat_inj (y := 0)
  simp only [lum, luminance, hzero, Nat.shiftRight_eq_div_pow, Nat.reducePow]

/-- The weights of the three channels add up to 256, so a luminance is a byte. -/
theorem lum_le (p : Nat) : lum s p ≤ 255 := by
  have hbyte (i : Nat) : (readCell s .px i).toNat ≤ 255 := Nat.le_of_lt_succ (readCell s .px i).isLt
  unfold lum
  split
  · exact hbyte p
  · have h0 := hbyte (4 * p)
    have h1 := hbyte (4 * p + 1)
    have h2 := hbyte (4 * p + 2)
    rw [Nat.shiftRight_eq_div_pow]
    omega

theorem mem_cellLums_iff {j l : Nat} : l ∈ cellLums s j ↔ ∃ x y, InCell s j x y ∧ l = luminance s x y := by
  simp only [cellLums, List.mem_map, List.mem_filter, decide_eq_true_iff, mem_pixels_iff, inCell_iff]
  constructor
  · rintro ⟨p, ⟨hp, hcell⟩, rfl⟩
    have hw : 0 < s.img.w.toNat := Nat.pos_of_mul_pos_right (Nat.zero_lt_of_lt hp)
    have hindex : p / s.img.w.toNat * s.img.w.toNat + p % s.img.w.toNat = p := Nat.div_add_mod' p _
    refine ⟨p % s.img.w.toNat, p / s.img.w.toNat, ⟨Nat.mod_lt p hw, Nat.div_lt_of_lt_mul hp, ?_⟩, ?_⟩
    · rw [hindex, hcell]
    · rw [← lum_pixelIndex, hindex]
  · rintro ⟨x, y, ⟨hx, hy, hcell⟩, rfl⟩
    exact ⟨_, ⟨pixelIndex_lt hx hy, hcell⟩, lum_pixelIndex x y⟩

end Pixels

/-! ## The thresholds (41_binarizer.md R165, R166) -/

/-- What a running minimum or maximum of a list answers stands in the list, not only at its start, when answering the
start means that every element equals it. -/
theorem mem_of_mem_cons_of_forall_eq {l : List Nat} {a m : Nat} (hne : l ≠ []) (hmem : m ∈ a :: l)
    (hstart : m = a → ∀ x ∈ l, x = a) : m ∈ l := by
  rcases List.mem_cons.1 hmem with heq | hmem
  · obtain ⟨x, hx⟩ := List.exists_mem_of_ne_nil l hne
    rw [heq, ← hstart heq x hx]
    exact hx
  · exact hmem

/-- A running minimum that starts at an upper bound is the least element of a list that has one. -/
theorem isLeast_foldl_min {l : List Nat} {a : Nat} (hne : l ≠ []) (ha : ∀ x ∈ l, x ≤ a) :
    IsLeast {x | x ∈ l} (l.foldl min a) := by
  obtain ⟨hmem, hle⟩ := List.min?_eq_some_iff.1 (List.min?_cons' (x := a) (xs := l))
  have hle' : ∀ x ∈ l, l.foldl min a ≤ x := fun x hx => hle x (List.mem_cons_of_mem a hx)
  exact ⟨mem_of_mem_cons_of_forall_eq hne hmem fun heq x hx => (ha x hx).antisymm (heq.ge.trans (hle' x hx)), hle'⟩

/-- A running maximum that starts at 0 is the greatest element of a list that has one. -/
theorem isGreatest_foldl_max {l : List Nat} (hne : l ≠ []) : IsGreatest {x | x ∈ l} (l.foldl max 0) := by
  obtain ⟨hmem, hge⟩ := List.max?_eq_some_iff.1 (List.max?_cons' (x := 0) (xs := l))
  have hge' : ∀ x ∈ l, x ≤ l.foldl max 0 := fun x hx => hge x (List.mem_cons_of_mem 0 hx)
  exact ⟨mem_of_mem_cons_of_forall_eq hne hmem fun heq x hx => Nat.le_zero.1 ((hge' x hx).trans heq.le), hge'⟩

section Thresholds
variable {s : State}

theorem cells_bounds_of_not_binrunBad (hb : ¬ BinrunBad s) :
    0 < s.img.cells.toNat ∧ s.img.cells.toNat ≤ 16 ∧ s.img.cells.toNat ≤ s.img.w.toNat ∧
      s.img.cells.toNat ≤ s.img.h.toNat := by
  have hzero : s.img.cells.toNat = 0 ↔ s.img.cells = 0 := BitVec.toNat_inj (y := 0)
  rw [BinrunBad, ← hzero] at hb
  omega

theorem cellLums_ne_nil (hb : ¬ BinrunBad s) {j : Nat} (hj : j < s.img.cells.toNat * s.img.cells.toNat) :
    cellLums s j ≠ [] := by
  obtain ⟨hpos, -, hkw, hkh⟩ := cells_bounds_of_not_binrunBad hb
  obtain ⟨x, y, hcell⟩ := exists_cellIndex_eq hpos hkw hkh hj
  exact List.ne_nil_of_mem (mem_cellLums_iff.2 ⟨x, y, hcell, rfl⟩)

theorem isThreshold_threshold (hb : ¬ BinrunBad s) {j : Nat} (hj : j < s.img.cells.toNat * s.img.cells.toNat) :
    IsThreshold s j (threshold s j) := by
  have hne := cellLums_ne_nil hb hj
  have hbyte : ∀ l ∈ cellLums s j, l ≤ 255 := by
    intro l hl
    obtain ⟨p, -, rfl⟩ := List.mem_map.1 hl
    exact lum_le p
  have hset : {l | ∃ x y, InCell s j x y ∧ l = luminance s x y} = {l | l ∈ cellLums s j} :=
    Set.ext fun _ => mem_cellLums_iff.symm
  rw [IsThreshold, hset]
  exact ⟨_, _, isLeast_foldl_min hne hbyte, isGreatest_foldl_max hne, rfl⟩

theorem IsThreshold.le {j T : Nat} (h : IsThreshold s j T) : T ≤ 255 := by
  obtain ⟨mn, mx, ⟨⟨x, y, -, hmn⟩, -⟩, ⟨⟨x', y', -, hmx⟩, -⟩, rfl⟩ := h
  rw [← lum_pixelIndex] at hmn hmx
  have hmn255 : mn ≤ 255 := hmn ▸ lum_le _
  have hmx255 : mx ≤ 255 := hmx ▸ lum_le _
  omega

theorem getD_thresholds (j : Nat) :
    (thresholds s).getD j 0 = if j < s.img.cells.toNat * s.img.cells.toNat then threshold s j else 0 := by
  rw [thresholds, List.getD_eq_getElem?_getD, List.getElem?_map]
  split
  · rw [List.getElem?_range ‹_›]
    rfl
  · rw [List.getElem?_eq_none (by rw [List.length_range]; omega)]
    rfl

end Thresholds

/-! ## What BINRUN writes (41_binarizer.md R166, R167) -/

section Binarize
variable (s : State)

/-- Pass 2 and the visible thresholds leave every cell beyond the image and every space but BM and THR. -/
theorem readCell_binarize_other {sp : Space} {i : Nat}
    (hbm : sp = .bm → s.img.w.toNat * s.img.h.toNat ≤ i) (hthr : sp = .thr → 256 ≤ i) :
    readCell (binarize s) sp i = readCell s sp i := by
  rw [binarize, readCell_writeFirst, if_neg, readCell_writeFirst, if_neg]
  · rintro ⟨rfl, hi⟩
    rw [List.length_map, pixels, List.length_range] at hi
    exact hi.not_ge (hbm rfl)
  · rintro ⟨rfl, hi⟩
    rw [List.length_map, List.length_range] at hi
    exact hi.not_ge (hthr rfl)

theorem readCell_binarize_thr {j : Nat} (hj : j < 256) :
    readCell (binarize s) .thr j = BitVec.ofNat 8 ((thresholds s).getD j 0) := by
  rw [binarize, readCell_writeFirst, List.length_map, List.length_range, if_pos ⟨rfl, hj⟩,
    List.getD_eq_getElem?_getD, List.getElem?_map, List.getElem?_range hj]
  rfl

theorem fitCell_bm_pixelBit (ts : List Nat) (p : Nat) : fitCell .bm (pixelBit s ts p) = pixelBit s ts p := by
  unfold pixelBit
  split <;> rfl

theorem readCell_binarize_bm {p : Nat} (hp : p < s.img.w.toNat * s.img.h.toNat) :
    readCell (binarize s) .bm p = pixelBit s (thresholds s) p := by
  rw [binarize, readCell_writeFirst, if_neg (by simp), readCell_writeFirst, List.length_map, pixels,
    List.length_range, if_pos ⟨rfl, hp⟩, List.getD_eq_getElem?_getD, List.getElem?_map, List.getElem?_range hp]
  exact fitCell_bm_pixelBit s _ p

theorem toNat_readCell_binarize_thr (hb : ¬ BinrunBad s) {j : Nat} (hj : j < 256) :
    (readCell (binarize s) .thr j).toNat =
      if j < s.img.cells.toNat * s.img.cells.toNat then threshold s j else 0 := by
  rw [readCell_binarize_thr s hj, getD_thresholds, BitVec.toNat_ofNat]
  split
  · have hbyte := (isThreshold_threshold hb ‹_›).le
    omega
  · rfl

theorem readCell_binarize_of_inCell (hb : ¬ BinrunBad s) {x y j : Nat} (h : InCell s j x y) :
    readCell (binarize s) .bm (y * s.img.w.toNat + x) = if luminance s x y < threshold s j then 1 else 0 := by
  obtain ⟨hx, hy, hcell⟩ := (inCell_iff j x y).1 h
  obtain ⟨hpos, -⟩ := cells_bounds_of_not_binrunBad hb
  have hj : j < s.img.cells.toNat * s.img.cells.toNat := by
    rw [← hcell, cellOfPixel_pixelIndex hx]
    exact cellIndex_lt hpos hx hy
  rw [readCell_binarize_bm s (pixelIndex_lt hx hy), pixelBit, lum_pixelIndex, hcell, getD_thresholds, if_pos hj]

end Binarize

/-- Settles O38: the thresholds of the statement are the ones that BINRUN computes. -/
theorem binrunBinarizesTheImage : Obligations.BinrunBinarizesTheImage := by
  unfold Obligations.BinrunBinarizesTheImage
  intro s hs hl hb
  refine ⟨_, threshold s, exec_binrun_of_good hs hl hb, rfl, fun j => isThreshold_threshold hb,
    fun x y j => readCell_binarize_of_inCell s hb, fun i hi => ?_, fun j => toNat_readCell_binarize_thr s hb,
    fun j hj => ?_, fun sp hbm hthr i => ?_⟩
  · exact readCell_binarize_other s (fun _ => hi) (fun h => by cases h)
  · exact readCell_binarize_other s (fun h => by cases h) (fun _ => hj)
  · exact readCell_binarize_other s (absurd · hbm) (absurd · hthr)

end Sys2Proof.Machine
end

section
/-! PROOFS. The perspective grid sampler (42_grid_sampler.md R180 to R196): the checks of GSRUN and GSMAP, the mapping
of one module, what GSMAP returns, where GSRUN stops, and the widths of the exact arithmetic. -/

-- One declaration at a time: the stacks of parallel elaboration can exceed the memory that the check allows.
set_option Elab.async false

namespace Sys2Proof.Machine

/-! ## The checks of GSRUN and GSMAP (42_grid_sampler.md R183) -/

theorem degenerate_iff (q : Quad) : degenerate q = true ↔ ThreeCollinear q := by
  simp only [degenerate, Bool.or_eq_true, decide_eq_true_iff, or_assoc]
  rfl

theorem failGsrun_eq_faulted (code : FaultCode) (cmd : Word32) (s : State) :
    failGsrun code cmd s = .next (faulted { s with gsok := false } code.bits cmd) :=
  raiseFault_eq_faulted code cmd (setGsok s false)

section Checks
variable {s : State}

theorem samplerCheck_of_tooLarge (hl : TooLarge s) : samplerCheck s = some .imageTooLarge :=
  if_pos ((imageTooLarge_iff s).2 hl)

/-- After the size check the three checks together are one test, whose failure is always BadParameter. -/
theorem samplerCheck_of_not_tooLarge (hl : ¬ TooLarge s) [Decidable (SamplerBad s)] :
    samplerCheck s = if SamplerBad s then some .badParameter else none := by
  have hzero (v : BitVec 16) : v.toNat = 0 ↔ v = 0 := BitVec.toNat_inj (y := 0)
  have hbad : SamplerBad s ↔ (s.img.w.toNat = 0 ∨ s.img.h.toNat = 0) ∨
      (s.gs.size.toNat < 1 ∨ 177 < s.gs.size.toNat ∨ s.gs.npts.toNat ≠ 3 ∧ s.gs.npts.toNat ≠ 4) ∨
      degenerate (gridQuad s) = true ∨ degenerate (pixelQuad s) = true := by
    simp only [SamplerBad, hzero, degenerate_iff, or_assoc]
  simp only [samplerCheck]
  rw [if_neg (mt (imageTooLarge_iff s).1 hl)]
  simp only [hbad, ite_or]

theorem samplerCheck_of_bad (hl : ¬ TooLarge s) (hb : SamplerBad s) : samplerCheck s = some .badParameter := by
  classical
  rw [samplerCheck_of_not_tooLarge hl, if_pos hb]

theorem samplerCheck_of_good (hl : ¬ TooLarge s) (hb : ¬ SamplerBad s) : samplerCheck s = none := by
  classical
  rw [samplerCheck_of_not_tooLarge hl, if_neg hb]

end Checks

section Clear
variable {s : State} (hs : s.err = false)
include hs

theorem exec_gsrun_of_check {code : FaultCode} (hc : samplerCheck s = some code) :
    exec .gsrun s = .next (faulted { s with gsok := false } code.bits (encode .gsrun)) := by
  rw [exec, execGsrun, unlessLatched_of_clear hs, hc]
  exact failGsrun_eq_faulted code _ s

theorem exec_gsrun_of_good (hl : ¬ TooLarge s) (hb : ¬ SamplerBad s) : exec .gsrun s = sampleGrid s := by
  rw [exec, execGsrun, unlessLatched_of_clear hs, samplerCheck_of_good hl hb]

variable (row col : BitVec 8)

theorem exec_gsmap_of_check {code : FaultCode} (hc : samplerCheck s = some code) :
    exec (.gsmap row col) s = .next (faulted s code.bits (encode (.gsmap row col))) := by
  rw [exec, execGsmap, unlessLatched_of_clear hs, hc]
  exact raiseFault_eq_faulted code _ s

theorem exec_gsmap_of_outside (hl : ¬ TooLarge s) (hb : ¬ SamplerBad s)
    (hout : s.gs.size.toNat ≤ row.toNat ∨ s.gs.size.toNat ≤ col.toNat) :
    exec (.gsmap row col) s = .next (faulted s 0x05 (encode (.gsmap row col))) := by
  rw [exec, execGsmap, unlessLatched_of_clear hs, samplerCheck_of_good hl hb]
  exact (if_pos hout).trans (raiseFault_eq_faulted .badParameter _ s)

end Clear

/-- Settles O40: the checks are the branches of GSRUN and GSMAP before the sampling. -/
theorem samplerChecksItsParameters : Obligations.SamplerChecksItsParameters := by
  unfold Obligations.SamplerChecksItsParameters
  refine ⟨rfl, fun s hs => ⟨fun hl => ?_, fun hl hb => ?_, fun hl hb row col => ?_⟩⟩
  · have hc := samplerCheck_of_tooLarge hl
    exact ⟨exec_gsrun_of_check hs hc, fun row col => exec_gsmap_of_check hs row col hc⟩
  · have hc := samplerCheck_of_bad hl hb
    exact ⟨exec_gsrun_of_check hs hc, fun row col => exec_gsmap_of_check hs row col hc⟩
  · exact exec_gsmap_of_outside hs row col hl hb

/-! ## The mapping of one module (42_grid_sampler.md R188) -/

/-- `Int.fdiv` is the floor of the exact quotient whatever the divisor's sign (42_grid_sampler.md R194 (c), (d)). -/
theorem floor_intCast_div_intCast (x d : Int) : ⌊(x : ℚ) / (d : ℚ)⌋ = Int.fdiv x d := by
  obtain ⟨n, rfl | rfl⟩ := Int.eq_nat_or_neg d
  · rw [Int.fdiv_eq_ediv_of_nonneg x n.cast_nonneg]
    exact_mod_cast Rat.floor_intCast_div_natCast x n
  · have hsign : (x : ℚ) / ((-n : Int) : ℚ) = ((-x : Int) : ℚ) / (n : ℚ) := by
      push_cast
      rw [div_neg, neg_div]
    rw [hsign, Rat.floor_intCast_div_natCast, ← Int.fdiv_eq_ediv_of_nonneg _ n.cast_nonneg, ← Int.neg_fdiv_neg x,
      neg_neg]

section Mapping
variable {s : State} {c r : Nat}

theorem mapModule_eq_some_iff {px py : Nat} :
    mapModule (transform s) s.img.w.toNat s.img.h.toNat c r = some (px, py) ↔ MapsTo s c r px py := by
  have hfloor (x wd : Int) : ⌊(x : ℚ) / (16 * (wd : ℚ))⌋ = Int.fdiv x (16 * wd) := by
    rw [← floor_intCast_div_intCast]
    push_cast
    rfl
  simp only [mapModule, MapsTo, hfloor]
  split
  · rename_i hinfinite
    simp [hinfinite]
  split
  · simp only [reduceCtorEq, false_iff]
    omega
  · simp only [Option.some.injEq, Prod.mk.injEq]
    omega

theorem mapModule_eq_none_iff :
    mapModule (transform s) s.img.w.toNat s.img.h.toNat c r = none ↔ MapsOut s c r := by
  simp only [MapsOut, ← mapModule_eq_some_iff, Option.eq_none_iff_forall_ne_some, Prod.forall, not_exists, ne_eq]

theorem exists_mapsTo_of_not_mapsOut (h : ¬ MapsOut s c r) : ∃ px py, MapsTo s c r px py := not_not.1 h

end Mapping

/-! ## GSMAP (42_grid_sampler.md R193) -/

theorem toNat_encode_gsmap (row col : BitVec 8) :
    (encode (.gsmap row col)).toNat = 0x29000000 + row.toNat * 0x100 + col.toNat := by
  have hrow : (0x29000000 ||| place row 8 : Word32).toNat = 0x29000000 + row.toNat * 0x100 :=
    toNat_or_place 0x29000000 row (by decide) (by decide)
  rw [encode, toNat_or_place _ col (by decide) (by omega), hrow, Nat.pow_zero, Nat.mul_one]

/-- The two halves of GSMAP's response: py in bits 23..12, px in bits 11..0. -/
theorem responseWord_pixel {px py : Nat} (hpx : px < 4096) (hpy : py < 4096) :
    responseWord false 0 (BitVec.ofNat 12 py ++ BitVec.ofNat 12 px) = BitVec.ofNat 32 (py * 4096 + px) := by
  have hpair : (BitVec.ofNat 12 py ++ BitVec.ofNat 12 px).toNat = py * 4096 + px := by
    rw [BitVec.toNat_append, BitVec.toNat_ofNat, BitVec.toNat_ofNat, Nat.mod_eq_of_lt hpy, Nat.mod_eq_of_lt hpx,
      ← Nat.shiftLeft_add_eq_or_of_lt hpx, Nat.shiftLeft_eq]
  rw [responseWord_success, ← BitVec.ofNat_toNat, hpair]

section Clear
variable {s : State} (hs : s.err = false) (hl : ¬ TooLarge s) (hb : ¬ SamplerBad s) {row col : BitVec 8}
  (hrow : row.toNat < s.gs.size.toNat) (hcol : col.toNat < s.gs.size.toNat)
include hs hl hb hrow hcol

theorem exec_gsmap_of_mapsTo {px py : Nat} (h : MapsTo s col.toNat row.toNat px py) :
    exec (.gsmap row col) s = .next { s with
      gs := { s.gs with mapx := BitVec.ofNat 12 px, mapy := BitVec.ofNat 12 py }
      rspOut := s.rspOut ++ [BitVec.ofNat 32 (py * 4096 + px)] } := by
  have hcheck := samplerCheck_of_good hl hb
  obtain ⟨-, -, -, hpx, hpy⟩ := id h
  rw [TooLarge] at hl
  rw [exec, execGsmap, unlessLatched_of_clear hs, hcheck]
  dsimp only
  rw [if_neg (by omega), mapModule_eq_some_iff.2 h, ← responseWord_pixel (by omega) (by omega)]
  rfl

theorem exec_gsmap_of_mapsOut (h : MapsOut s col.toNat row.toNat) :
    exec (.gsmap row col) s =
      .next (faulted { s with gs := { s.gs with failc := col, failr := row } } 0x11 (encode (.gsmap row col))) := by
  rw [exec, execGsmap, unlessLatched_of_clear hs, samplerCheck_of_good hl hb]
  dsimp only
  rw [if_neg (by omega), mapModule_eq_none_iff.2 h]
  dsimp only
  rw [raiseFault_eq_faulted, setFail, BitVec.ofNat_toNat, BitVec.ofNat_toNat, BitVec.setWidth_eq, BitVec.setWidth_eq]
  rfl

end Clear

/-- Settles O41: the two outcomes of the mapping are GSMAP's two ends. -/
theorem gsmapReturnsThePixel : Obligations.GsmapReturnsThePixel := by
  unfold Obligations.GsmapReturnsThePixel
  exact fun row col => ⟨toNat_encode_gsmap row col, fun s hs hl hb hrow hcol =>
    ⟨fun px py => exec_gsmap_of_mapsTo hs hl hb hrow hcol, exec_gsmap_of_mapsOut hs hl hb hrow hcol⟩⟩

/-! ## The sampling of GSRUN (42_grid_sampler.md R191, R192) -/

/-- The module with MM index `j` maps outside the bitmap. -/
def IndexMapsOut (s : State) (j : Nat) : Prop := MapsOut s (j % s.gs.size.toNat) (j / s.gs.size.toNat)

/-- What GSRUN writes to MM cell `j` when its module maps into the bitmap. -/
def moduleSample (s : State) (j : Nat) : Byte :=
  match mapModule (transform s) s.img.w.toNat s.img.h.toNat (j % s.gs.size.toNat) (j / s.gs.size.toNat) with
  | some (px, py) => readCell s .bm (py * s.img.w.toNat + px)
  | none => 0

section Sampling
variable {s : State} {c r : Nat}

theorem moduleIndex_mod (hc : c < s.gs.size.toNat) (r : Nat) :
    (r * s.gs.size.toNat + c) % s.gs.size.toNat = c := by
  rw [Nat.mul_add_mod', Nat.mod_eq_of_lt hc]

theorem moduleIndex_div (hc : c < s.gs.size.toNat) (r : Nat) :
    (r * s.gs.size.toNat + c) / s.gs.size.toNat = r := by
  rw [Nat.mul_comm, Nat.mul_add_div (by omega), Nat.div_eq_of_lt hc, Nat.add_zero]

theorem moduleIndex_lt (hc : c < s.gs.size.toNat) (hr : r < s.gs.size.toNat) :
    r * s.gs.size.toNat + c < s.gs.size.toNat * s.gs.size.toNat := by
  have hrows := Nat.mul_le_mul_right s.gs.size.toNat (Nat.succ_le_of_lt hr)
  rw [Nat.succ_mul] at hrows
  omega

theorem indexMapsOut_moduleIndex (hc : c < s.gs.size.toNat) (r : Nat) :
    IndexMapsOut s (r * s.gs.size.toNat + c) ↔ MapsOut s c r := by
  rw [IndexMapsOut, moduleIndex_mod hc, moduleIndex_div hc]

theorem moduleSample_of_mapsTo (hc : c < s.gs.size.toNat) {px py : Nat} (h : MapsTo s c r px py) :
    moduleSample s (r * s.gs.size.toNat + c) = readCell s .bm (py * s.img.w.toNat + px) := by
  rw [moduleSample, moduleIndex_mod hc, moduleIndex_div hc, mapModule_eq_some_iff.2 h]

/-- A cell of MM is as wide as one of BM, so it keeps all of a sample. -/
theorem fitCell_mm_moduleSample (j : Nat) : fitCell .mm (moduleSample s j) = moduleSample s j := by
  unfold moduleSample
  split
  · exact fitCell_fitCell .bm _
  · rfl

theorem sampleModules_cons_of_out {j : Nat} (h : IndexMapsOut s j) (js : List Nat) :
    sampleModules s (transform s) (j :: js) = ([], some j) := by
  rw [sampleModules, mapModule_eq_none_iff.2 h]

theorem sampleModules_cons_of_in {j : Nat} (h : ¬ IndexMapsOut s j) (js : List Nat) :
    sampleModules s (transform s) (j :: js) =
      (moduleSample s j :: (sampleModules s (transform s) js).1, (sampleModules s (transform s) js).2) := by
  obtain ⟨px, py, hmap⟩ := exists_mapsTo_of_not_mapsOut h
  rw [sampleModules, moduleSample, mapModule_eq_some_iff.2 hmap]

/-- Modules that map in are sampled in order, and the sampling goes on with those after them. -/
theorem sampleModules_append {js : List Nat} (hin : ∀ j ∈ js, ¬ IndexMapsOut s j) (ks : List Nat) :
    sampleModules s (transform s) (js ++ ks) =
      (js.map (moduleSample s) ++ (sampleModules s (transform s) ks).1, (sampleModules s (transform s) ks).2) := by
  induction js with
  | nil => rfl
  | cons j js ih =>
    obtain ⟨hj, hjs⟩ := List.forall_mem_cons.1 hin
    rw [List.cons_append, sampleModules_cons_of_in hj, ih hjs]
    rfl

/-- The modules before one of the matrix, itself, and those after it. -/
theorem exists_moduleOrder_eq {j : Nat} (hj : j < s.gs.size.toNat * s.gs.size.toNat) :
    ∃ ks, moduleOrder s = List.range j ++ j :: ks := by
  obtain ⟨k, hk⟩ := Nat.exists_eq_add_of_lt hj
  refine ⟨(List.range k).map fun i => j + (i + 1), ?_⟩
  rw [moduleOrder, hk, Nat.add_assoc, List.range_add, List.range_succ_eq_map, List.map_cons, List.map_map]
  rfl

/-- GSRUN after its checks, where the module with index `j` is the first that maps out. -/
theorem sampleGrid_of_first_out {j : Nat} (hj : j < s.gs.size.toNat * s.gs.size.toNat)
    (hin : ∀ i < j, ¬ IndexMapsOut s i) (hout : IndexMapsOut s j) :
    sampleGrid s = .next (faulted
      { writeFirst s .mm ((List.range j).map (moduleSample s)) with
        gsok := false
        gs := { s.gs with
          failc := BitVec.ofNat 8 (j % s.gs.size.toNat), failr := BitVec.ofNat 8 (j / s.gs.size.toNat) } }
      0x11 (encode .gsrun)) := by
  obtain ⟨ks, hks⟩ := exists_moduleOrder_eq hj
  have hsamples : sampleModules s (transform s) (moduleOrder s) = ((List.range j).map (moduleSample s), some j) := by
    rw [hks, sampleModules_append (fun i hi => hin i (List.mem_range.1 hi)), sampleModules_cons_of_out hout,
      List.append_nil]
  rw [sampleGrid, hsamples]
  exact failGsrun_eq_faulted .sampleOutOfBounds _ _

/-! What the cells hold after the first `n` samples are written. -/

theorem readCell_writeSamples_mm {n i : Nat} (hi : i < n) :
    readCell (writeFirst s .mm ((List.range n).map (moduleSample s))) .mm i = moduleSample s i := by
  rw [readCell_writeFirst, List.length_map, List.length_range, if_pos ⟨rfl, hi⟩, List.getD_eq_getElem?_getD,
    List.getElem?_map, List.getElem?_range hi]
  exact fitCell_mm_moduleSample i

theorem readCell_writeSamples_other {n i : Nat} {sp : Space} (h : sp = .mm → n ≤ i) :
    readCell (writeFirst s .mm ((List.range n).map (moduleSample s))) sp i = readCell s sp i := by
  rw [readCell_writeFirst, List.length_map, List.length_range, if_neg]
  rintro ⟨hsp, hi⟩
  exact hi.not_ge (h hsp)

end Sampling

/-- Settles O43: the modules before the failing one are the indices below its own. -/
theorem gsrunStopsAtTheFirstModuleOutside : Obligations.GsrunStopsAtTheFirstModuleOutside := by
  unfold Obligations.GsrunStopsAtTheFirstModuleOutside
  intro s c r hs hl hb hc hr hout hfirst
  have hsize : 0 < s.gs.size.toNat := Nat.zero_lt_of_lt hc
  have hin : ∀ i < r * s.gs.size.toNat + c, ¬ IndexMapsOut s i := fun i hi =>
    hfirst _ _ (Nat.mod_lt i hsize) (by rwa [Nat.div_add_mod'])
  have hrun := exec_gsrun_of_good hs hl hb
  rw [sampleGrid_of_first_out (moduleIndex_lt hc hr) hin ((indexMapsOut_moduleIndex hc r).2 hout), moduleIndex_mod hc,
    moduleIndex_div hc] at hrun
  refine ⟨_, hrun, rfl, fun c' r' px py hc' hbefore hmap => ?_, fun i hi => ?_, fun sp hsp i => ?_⟩
  · exact (readCell_writeSamples_mm hbefore).trans (moduleSample_of_mapsTo hc' hmap)
  · exact readCell_writeSamples_other fun _ => hi
  · exact readCell_writeSamples_other (absurd · hsp)

/-! ## The widths of the exact arithmetic (42_grid_sampler.md R189) -/

theorem abs_mul_lt_mul {a b m n : Int} (ha : |a| < m) (hb : |b| < n) : |a * b| < m * n := by
  rw [abs_mul]
  exact mul_lt_mul'' ha hb (abs_nonneg a) (abs_nonneg b)

theorem abs_mul_sub_mul_lt {a b c d m n : Int} (ha : |a| < m) (hb : |b| < n) (hc : |c| < m) (hd : |d| < n) :
    |a * b - c * d| < 2 * (m * n) :=
  calc |a * b - c * d| ≤ |a * b| + |c * d| := abs_sub _ _
    _ < m * n + m * n := add_lt_add (abs_mul_lt_mul ha hb) (abs_mul_lt_mul hc hd)
    _ = 2 * (m * n) := (two_mul _).symm

/-- The inner product of two triples, an entry of a product of matrices. -/
theorem abs_inner_lt {a b c x y z m n : Int} (ha : |a| < m) (hb : |b| < m) (hc : |c| < m) (hx : |x| < n)
    (hy : |y| < n) (hz : |z| < n) : |a * x + b * y + c * z| < 3 * (m * n) := by
  have hax := abs_mul_lt_mul ha hx
  have hby := abs_mul_lt_mul hb hy
  have hcz := abs_mul_lt_mul hc hz
  have hsum := abs_add_three (a * x) (b * y) (c * z)
  omega

/-- Both coordinates are below 2^16, as those of a point read from CSRs are. -/
def IsCsrPoint (p : IntPoint) : Prop := (0 ≤ p.fst ∧ p.fst < 2 ^ 16) ∧ 0 ≤ p.snd ∧ p.snd < 2 ^ 16

/-- Every entry is below `n` in magnitude. -/
structure Mat3.Below (m : Mat3) (n : Int) : Prop where
  a : |m.a| < n
  b : |m.b| < n
  c : |m.c| < n
  d : |m.d| < n
  e : |m.e| < n
  f : |m.f| < n
  g : |m.g| < n
  h : |m.h| < n
  i : |m.i| < n

/-- The four integers of 42_grid_sampler.md R185 are below 2^33 in magnitude. -/
structure Quad.DetsBelow (q : Quad) : Prop where
  lam : |quadLam q| < 2 ^ 33
  mu : |quadMu q| < 2 ^ 33
  tau : |quadTau q| < 2 ^ 33
  dd : |quadDd q| < 2 ^ 33

/-- The widths of 42_grid_sampler.md R189 that concern one quadruple. -/
structure Quad.WithinWidths (q : Quad) : Prop where
  dets : q.DetsBelow
  basis_below : (basis q).Below (2 ^ 49)
  adj_below : (adj (basis q)).Below (2 ^ 100)

theorem Mat3.Below.forall_mem {m : Mat3} {n : Int} (hm : m.Below n) :
    ∀ z ∈ [m.a, m.b, m.c, m.d, m.e, m.f, m.g, m.h, m.i], |z| < n := by
  simpa using And.intro hm.a ⟨hm.b, hm.c, hm.d, hm.e, hm.f, hm.g, hm.h, hm.i⟩

theorem Quad.DetsBelow.forall_mem {q : Quad} (hq : q.DetsBelow) :
    ∀ z ∈ [quadLam q, quadMu q, quadTau q, quadDd q], |z| < 2 ^ 33 := by
  simpa using And.intro hq.lam ⟨hq.mu, hq.tau, hq.dd⟩

theorem abs_det3_lt {p q r : IntPoint} (hp : IsCsrPoint p) (hq : IsCsrPoint q) (hr : IsCsrPoint r) :
    |det3 p q r| < 2 ^ 33 := by
  obtain ⟨⟨hp0, hp1⟩, hp2, hp3⟩ := hp
  obtain ⟨⟨hq0, hq1⟩, hq2, hq3⟩ := hq
  obtain ⟨⟨hr0, hr1⟩, hr2, hr3⟩ := hr
  exact abs_mul_sub_mul_lt (abs_sub_lt_of_nonneg_of_lt hq0 hq1 hp0 hp1) (abs_sub_lt_of_nonneg_of_lt hr2 hr3 hp2 hp3)
    (abs_sub_lt_of_nonneg_of_lt hr0 hr1 hp0 hp1) (abs_sub_lt_of_nonneg_of_lt hq2 hq3 hp2 hp3)

/-- The completed corner can lie far outside, but with it the four integers are one determinant of the three given
points, up to sign. -/
theorem quad_dets_completeParallelogram (p0 p1 p2 : IntPoint) :
    quadLam ⟨p0, p1, p2, completeParallelogram p0 p1 p2⟩ = -det3 p0 p1 p2 ∧
      quadMu ⟨p0, p1, p2, completeParallelogram p0 p1 p2⟩ = det3 p0 p1 p2 ∧
      quadTau ⟨p0, p1, p2, completeParallelogram p0 p1 p2⟩ = det3 p0 p1 p2 := by
  simp only [quadLam, quadMu, quadTau, det3, completeParallelogram]
  refine ⟨?_, ?_, ?_⟩ <;> ring

theorem detsBelow_quadOf (s : State) {p : Fin 4 → IntPoint} (hp : ∀ i, IsCsrPoint (p i)) :
    (quadOf s p).DetsBelow := by
  have h012 : |det3 (p 0) (p 1) (p 2)| < 2 ^ 33 := abs_det3_lt (hp 0) (hp 1) (hp 2)
  unfold quadOf
  split
  · obtain ⟨hlam, hmu, htau⟩ := quad_dets_completeParallelogram (p 0) (p 1) (p 2)
    exact ⟨by rwa [hlam, abs_neg], hmu ▸ h012, htau ▸ h012, h012⟩
  · exact ⟨abs_det3_lt (hp 3) (hp 1) (hp 2), abs_det3_lt (hp 0) (hp 3) (hp 2), abs_det3_lt (hp 0) (hp 1) (hp 3), h012⟩

/-- The fourth point enters `basis` through the determinants only. -/
theorem below_basis {q : Quad} (hq : q.DetsBelow) (h0 : IsCsrPoint q.p0) (h1 : IsCsrPoint q.p1)
    (h2 : IsCsrPoint q.p2) : (basis q).Below (2 ^ 49) := by
  have hentry {z x : Int} (hz : |z| < 2 ^ 33) (hx : 0 ≤ x ∧ x < 2 ^ 16) : |z * x| < 2 ^ 49 :=
    abs_mul_lt_mul hz ((abs_of_nonneg hx.1).trans_lt hx.2)
  obtain ⟨hlam, hmu, htau, -⟩ := hq
  exact ⟨hentry hlam h0.1, hentry hmu h1.1, hentry htau h2.1, hentry hlam h0.2, hentry hmu h1.2, hentry htau h2.2,
    hlam.trans (by decide), hmu.trans (by decide), htau.trans (by decide)⟩

theorem Mat3.Below.adj {m : Mat3} {n : Int} (hm : m.Below n) : (adj m).Below (2 * (n * n)) where
  a := abs_mul_sub_mul_lt hm.e hm.i hm.f hm.h
  b := abs_mul_sub_mul_lt hm.c hm.h hm.b hm.i
  c := abs_mul_sub_mul_lt hm.b hm.f hm.c hm.e
  d := abs_mul_sub_mul_lt hm.f hm.g hm.d hm.i
  e := abs_mul_sub_mul_lt hm.a hm.i hm.c hm.g
  f := abs_mul_sub_mul_lt hm.c hm.d hm.a hm.f
  g := abs_mul_sub_mul_lt hm.d hm.h hm.e hm.g
  h := abs_mul_sub_mul_lt hm.b hm.g hm.a hm.h
  i := abs_mul_sub_mul_lt hm.a hm.e hm.b hm.d

theorem Mat3.Below.matMul {x y : Mat3} {m n : Int} (hx : x.Below m) (hy : y.Below n) :
    (matMul x y).Below (3 * (m * n)) where
  a := abs_inner_lt hx.a hx.b hx.c hy.a hy.d hy.g
  b := abs_inner_lt hx.a hx.b hx.c hy.b hy.e hy.h
  c := abs_inner_lt hx.a hx.b hx.c hy.c hy.f hy.i
  d := abs_inner_lt hx.d hx.e hx.f hy.a hy.d hy.g
  e := abs_inner_lt hx.d hx.e hx.f hy.b hy.e hy.h
  f := abs_inner_lt hx.d hx.e hx.f hy.c hy.f hy.i
  g := abs_inner_lt hx.g hx.h hx.i hy.a hy.d hy.g
  h := abs_inner_lt hx.g hx.h hx.i hy.b hy.e hy.h
  i := abs_inner_lt hx.g hx.h hx.i hy.c hy.f hy.i

theorem Mat3.Below.mono {x : Mat3} {m n : Int} (hx : x.Below m) (h : m ≤ n) : x.Below n :=
  ⟨hx.a.trans_le h, hx.b.trans_le h, hx.c.trans_le h, hx.d.trans_le h, hx.e.trans_le h, hx.f.trans_le h,
    hx.g.trans_le h, hx.h.trans_le h, hx.i.trans_le h⟩

theorem withinWidths_quadOf (s : State) {p : Fin 4 → IntPoint} (hp : ∀ i, IsCsrPoint (p i)) :
    (quadOf s p).WithinWidths := by
  have hdets := detsBelow_quadOf s hp
  have hbasis : (basis (quadOf s p)).Below (2 ^ 49) := below_basis hdets (hp 0) (hp 1) (hp 2)
  exact ⟨hdets, hbasis, hbasis.adj.mono (by decide)⟩

theorem isCsrPoint_toNat (x y : BitVec 16) : IsCsrPoint ⟨(x.toNat : Int), (y.toNat : Int)⟩ :=
  ⟨⟨Int.natCast_nonneg _, Int.ofNat_lt.2 x.isLt⟩, Int.natCast_nonneg _, Int.ofNat_lt.2 y.isLt⟩

theorem withinWidths_gridQuad (s : State) : (gridQuad s).WithinWidths :=
  withinWidths_quadOf s fun _ => isCsrPoint_toNat _ _

theorem withinWidths_pixelQuad (s : State) : (pixelQuad s).WithinWidths :=
  withinWidths_quadOf s fun _ => isCsrPoint_toNat _ _

theorem below_transform (s : State) : (transform s).Below (2 ^ 151) :=
  ((withinWidths_pixelQuad s).basis_below.matMul (withinWidths_gridQuad s).adj_below).mono (by decide)

/-- A coordinate of the image of a module's centre: the centres of a matrix of at most 177 by 177 have u, v ≤ 353. -/
theorem abs_imageCoordinate_lt {a b e : Int} (ha : |a| < 2 ^ 151) (hb : |b| < 2 ^ 151) (he : |e| < 2 ^ 151)
    {c r : Nat} (hc : c < 177) (hr : r < 177) :
    |a * (2 * c + 1) + b * (2 * r + 1) + e| < 2 ^ 162 := by
  have hcentre {k : Nat} (hk : k < 177) : |(2 * k + 1 : Int)| < 354 := by
    rw [abs_of_nonneg (by omega)]
    omega
  have hsum := abs_inner_lt ha hb he (hcentre hc) (hcentre hr) (by decide : |(1 : Int)| < 354)
  rw [mul_one] at hsum
  exact hsum.trans (by decide)

/-- Settles O45: each width follows from those of the operands, from the points in the CSRs on. -/
theorem samplerArithmeticIsBounded : Obligations.SamplerArithmeticIsBounded := by
  unfold Obligations.SamplerArithmeticIsBounded
  intro s
  have hquads : ∀ q ∈ [gridQuad s, pixelQuad s], q.WithinWidths :=
    List.forall_mem_cons.2 ⟨withinWidths_gridQuad s, List.forall_mem_singleton.2 (withinWidths_pixelQuad s)⟩
  have hH := below_transform s
  refine ⟨fun q hq => ?_, hH.forall_mem, fun c r hc hr => ?_⟩
  · obtain ⟨hdets, hbasis, hadj⟩ := hquads q hq
    exact ⟨hdets.forall_mem, hbasis.forall_mem, hadj.forall_mem⟩
  · exact ⟨abs_imageCoordinate_lt hH.a hH.b hH.c hc hr, abs_imageCoordinate_lt hH.d hH.e hH.f hc hr,
      abs_imageCoordinate_lt hH.g hH.h hH.i hc hr⟩

end Sys2Proof.Machine
end

section
/-! PROOFS. The Reed–Solomon decoder (43_rs_decoder.md R210 to R225): the syndromes, the cells each of RSDEC's writes
leaves, its branches, and what it does with a codeword and with a block that it corrects. -/

-- One declaration at a time: the stacks of parallel elaboration can exceed the memory that the check allows.
set_option Elab.async false

namespace Sys2Proof.Machine

/-! ## Syndromes (43_rs_decoder.md R212 to R214) -/

theorem residue_gfSum (l : List Byte) : residue (gfSum l) = (l.map residue).sum := by
  induction l with
  | nil => exact residue_zero
  | cons b l ih => rw [List.map_cons, List.sum_cons, ← ih, ← residue_xor, gfSum, List.foldr_cons, gfSum]

theorem residue_gfSum_map_range (f : Nat → Byte) (n : Nat) :
    residue (gfSum ((List.range n).map f)) = ∑ i ∈ Finset.range n, residue (f i) := by
  rw [residue_gfSum, List.map_map]
  rfl

theorem residue_syndromeSum (cw : Nat → Byte) (n j : Nat) :
    residue (syndromeSum cw n j) = ∑ i ∈ Finset.range n, residue (cw i) * alpha ^ (j * (n - 1 - i)) := by
  simp only [syndromeSum, residue_gfSum_map_range, residue_gfMul, powAlpha_eq_alphaPow, residue_alphaPow]

/-- Each turn of Horner's rule multiplies the terms so far by `a` and adds the next cell. -/
theorem residue_syndromeAt (cw : Nat → Byte) (a : Byte) (n : Nat) :
    residue (syndromeAt ((List.range n).map cw) a) =
      ∑ i ∈ Finset.range n, residue (cw i) * residue a ^ (n - 1 - i) := by
  induction n with
  | zero => exact residue_zero
  | succ n ih =>
    have hturn : syndromeAt ((List.range (n + 1)).map cw) a =
        gfMul (syndromeAt ((List.range n).map cw) a) a ^^^ cw n := by
      simp [syndromeAt, List.range_succ]
    have hterm : ∀ i ∈ Finset.range n,
        residue (cw i) * residue a ^ (n - 1 - i) * residue a = residue (cw i) * residue a ^ (n + 1 - 1 - i) := by
      intro i hi
      have hexp : n + 1 - 1 - i = n - 1 - i + 1 := by
        have := Finset.mem_range.1 hi
        omega
      rw [hexp, pow_succ, mul_assoc]
    rw [hturn, residue_xor, residue_gfMul, ih, Finset.sum_mul, Finset.sum_congr rfl hterm, Finset.sum_range_succ]
    simp

/-- Horner's rule gives the value of the block's polynomial at α^j (43_rs_decoder.md R214). -/
theorem syndromeAt_gfExp (cw : Nat → Byte) (n j : Nat) :
    syndromeAt ((List.range n).map cw) (gfExp j) = syndromeSum cw n j :=
  residue_injective <| by
    simp only [residue_syndromeAt, residue_syndromeSum, gfExp_eq_alphaPow, residue_alphaPow, pow_mul]

/-- S_0 .. S_(E−1) of the block in CW (43_rs_decoder.md R214). -/
def blockSyndromes (s : State) : List Byte :=
  (List.range s.rs.e.toNat).map (syndromeSum (readCell s .cw) (blockLength s))

theorem syndromes_codewords (s : State) :
    syndromes (codewords s (blockLength s)) s.rs.e.toNat = blockSyndromes s := by
  simp only [syndromes, codewords, syndromeAt_gfExp, blockSyndromes]

theorem coef_map_range (f : Nat → Byte) (n i : Nat) : coef ((List.range n).map f) i = if i < n then f i else 0 := by
  rw [coef, List.getD_eq_getElem?_getD, List.getElem?_map]
  split
  · rw [List.getElem?_range ‹_›]
    rfl
  · rw [List.getElem?_eq_none (by rw [List.length_range]; omega)]
    rfl

theorem coef_blockSyndromes (s : State) (j : Nat) :
    coef (blockSyndromes s) j =
      if j < s.rs.e.toNat then syndromeSum (readCell s .cw) (blockLength s) j else 0 :=
  coef_map_range _ _ j

theorem all_zero_blockSyndromes_iff (s : State) :
    (blockSyndromes s).all (fun v => decide (v = 0)) = true ↔
      IsCodeword (readCell s .cw) (blockLength s) s.rs.e.toNat := by
  simp [blockSyndromes, IsCodeword]

/-! ## The cells after RSDEC's writes (43_rs_decoder.md R214, R215, R217, R221) -/

section Cells
variable (s : State)

/-- A space of bytes after an engine has written a padded result to its first cells. -/
theorem readCell_writeFirst_padZero {sp : Space} (hbyte : sp.oneBit = false) (sp' : Space) (vs : List Byte)
    (count i : Nat) :
    readCell (writeFirst s sp (padZero vs count)) sp' i =
      if sp' = sp ∧ i < count then coef vs i else readCell s sp' i := by
  rw [readCell_writeFirst, padZero, List.length_map, List.length_range]
  split
  next h =>
    obtain ⟨-, hi⟩ := h
    have hcoef := coef_map_range (coef vs) count i
    rw [coef, if_pos hi] at hcoef
    rw [hcoef, fitCell, hbyte]
    rfl
  next => rfl

theorem readCell_storeSyndromes (syn : List Byte) (sp : Space) (i : Nat) :
    readCell (storeSyndromes s syn) sp i =
      if sp = .emag ∧ i < 128 then 0 else if sp = .epos ∧ i < 128 then 0
      else if sp = .syn ∧ i < 256 then coef syn i else readCell s sp i := by
  have hcells : readCell (storeSyndromes s syn) sp i =
      readCell (writeFirst (writeFirst (writeFirst s .syn (padZero syn 256)) .epos (padZero [] 128)) .emag
        (padZero [] 128)) sp i := rfl
  rw [hcells]
  iterate 3 rw [readCell_writeFirst_padZero _ rfl]
  rfl

theorem readCell_storeLocator (c : List Byte) (l : Nat) (sp : Space) (i : Nat) :
    readCell (storeLocator s c l) sp i = if sp = .lam ∧ i < 256 then coef c i else readCell s sp i :=
  readCell_writeFirst_padZero s rfl sp c 256 i

theorem readCell_storeCorrections (fixes : List (Nat × Byte)) (sp : Space) (i : Nat) :
    readCell (storeCorrections s fixes) sp i =
      if sp = .emag ∧ i < 128 then coef (fixes.map (fun f => f.2)) i
      else if sp = .epos ∧ i < 128 then coef (fixes.map (fun f => BitVec.ofNat 8 f.1)) i
      else readCell s sp i := by
  have hcells : readCell (storeCorrections s fixes) sp i =
      readCell (writeFirst (writeFirst s .epos (padZero (fixes.map (fun f => BitVec.ofNat 8 f.1)) 128)) .emag
        (padZero (fixes.map (fun f => f.2)) 128)) sp i := rfl
  rw [hcells]
  iterate 2 rw [readCell_writeFirst_padZero _ rfl]

theorem find?_map_pair (ps : List Nat) (m : Nat → Byte) (i : Nat) :
    (ps.map (fun p => (p, m p))).find? (fun f => f.1 == i) = if i ∈ ps then some (i, m i) else none := by
  induction ps with
  | nil => rfl
  | cons p ps ih =>
    by_cases h : p = i
    · simp [h]
    · simp [h, Ne.symm h, ih]

/-- Correcting at distinct positions by a function of the position. -/
theorem readCell_correctCells_map {ps : List Nat} (hd : ps.Nodup) (m : Nat → Byte) (i : Nat) :
    readCell (correctCells s (ps.map (fun p => (p, m p)))) .cw i =
      if i ∈ ps then readCell s .cw i ^^^ m i else readCell s .cw i := by
  have hfst : (ps.map (fun p => (p, m p))).map Prod.fst = ps := by simp [Function.comp_def]
  rw [readCell_correctCells s _ (hfst.symm ▸ hd), find?_map_pair]
  split <;> simp

end Cells

/-! ## What RSDEC's writes change besides cells (43_rs_decoder.md R214, R215, R217, R221) -/

section Frames
variable (s : State)

theorem writeFirst_frame (sp : Space) (vs : List Byte) : ∃ m, writeFirst s sp vs = { s with mem := m } := ⟨_, rfl⟩

theorem storeSyndromes_frame (syn : List Byte) :
    ∃ m, storeSyndromes s syn = { s with mem := m, rs := { s.rs with nerr := 0 } } := by
  obtain ⟨_, hsyn⟩ := writeFirst_frame s .syn (padZero syn 256)
  obtain ⟨_, hepos⟩ := writeFirst_frame (writeFirst s .syn (padZero syn 256)) .epos (padZero [] 128)
  obtain ⟨m, hemag⟩ :=
    writeFirst_frame (writeFirst (writeFirst s .syn (padZero syn 256)) .epos (padZero [] 128)) .emag (padZero [] 128)
  exact ⟨m, by simp only [storeSyndromes]; rw [hemag, hepos, hsyn]⟩

theorem storeLocator_frame (c : List Byte) (l : Nat) :
    ∃ m, storeLocator s c l = { s with mem := m, rs := { s.rs with l := BitVec.ofNat 8 l } } := ⟨_, rfl⟩

theorem storeCorrections_frame (fixes : List (Nat × Byte)) :
    ∃ m, storeCorrections s fixes = { s with mem := m, rs := { s.rs with nerr := BitVec.ofNat 7 fixes.length } } :=
  ⟨_, rfl⟩

theorem storeLocator_storeSyndromes_frame (syn c : List Byte) (l : Nat) :
    ∃ m, storeLocator (storeSyndromes s syn) c l =
      { s with mem := m, rs := { s.rs with l := BitVec.ofNat 8 l, nerr := 0 } } := by
  obtain ⟨_, hsyn⟩ := storeSyndromes_frame s syn
  obtain ⟨m, hloc⟩ := storeLocator_frame (storeSyndromes s syn) c l
  exact ⟨m, by rw [hloc, hsyn]⟩

theorem storeCorrections_correctCells_frame (fixes : List (Nat × Byte)) :
    ∃ m, storeCorrections (correctCells s fixes) fixes =
      { s with mem := m, rs := { s.rs with nerr := BitVec.ofNat 7 fixes.length } } := by
  obtain ⟨m, hrec⟩ := storeCorrections_frame (correctCells s fixes) fixes
  exact ⟨m, by rw [hrec, correctCells_frame]⟩

end Frames

/-! ## The branches of RSDEC (43_rs_decoder.md R210, R217, R218) -/

theorem rsBadParameter_eq_false {s : State} (hr : RsReady s) : rsBadParameter s = false := by
  obtain ⟨hk, he, hn⟩ := hr
  simp [rsBadParameter, Nat.one_le_iff_ne_zero.1 hk, Nat.one_le_iff_ne_zero.1 he, hn]

theorem exists_endRsdec (s : State) :
    ∃ t, endRsdec s = .next t ∧ t = { s with rsok := true, rspOut := s.rspOut ++ [0] } ∧ SameCells s t := by
  refine ⟨_, rfl, ?_, fun _ _ => rfl⟩
  rw [responseWord_success]
  rfl

theorem exists_failRsdec (code : FaultCode) (cmd : Word32) (s : State) :
    ∃ t, failRsdec code cmd s = .next t ∧ t = faulted { s with rsok := false } code.bits cmd ∧ SameCells s t :=
  ⟨_, raiseFault_eq_faulted code cmd (setRsok s false), rfl, fun _ _ => rfl⟩

/-- The syndromes and the locator as a block that is no codeword leaves them (43_rs_decoder.md R214, R217). -/
def storeSolution (s : State) : State :=
  storeLocator (storeSyndromes s (blockSyndromes s)) (solved s).c (solved s).l

theorem readCell_storeSolution (s : State) (sp : Space) (i : Nat) :
    readCell (storeSolution s) sp i =
      if sp = .lam ∧ i < 256 then coef (solved s).c i
      else if sp = .emag ∧ i < 128 then 0 else if sp = .epos ∧ i < 128 then 0
      else if sp = .syn ∧ i < 256 then coef (blockSyndromes s) i else readCell s sp i := by
  rw [storeSolution, readCell_storeLocator, readCell_storeSyndromes]

section Ready
variable {s : State} (hs : s.err = false) (hr : RsReady s)
include hs hr

theorem exec_rsdec_of_ready : exec .rsdec s = decodeBlock s (blockLength s) s.rs.e.toNat := by
  rw [exec, execRsdec, unlessLatched_of_clear hs, rsBadParameter_eq_false hr]
  rfl

theorem exec_rsdec_of_codeword (hc : IsCodeword (readCell s .cw) (blockLength s) s.rs.e.toNat) :
    exec .rsdec s = endRsdec (storeLocator (storeSyndromes s (blockSyndromes s)) [1] 0) := by
  rw [exec_rsdec_of_ready hs hr, decodeBlock, syndromes_codewords]
  exact if_pos ((all_zero_blockSyndromes_iff s).2 hc)

theorem exec_rsdec_of_not_codeword (hc : ¬ IsCodeword (readCell s .cw) (blockLength s) s.rs.e.toNat) :
    exec .rsdec s =
      correctBlock (storeSolution s) (blockSyndromes s) (solved s).c (solved s).l (s.rs.e.toNat / 2)
        (blockLength s) := by
  rw [exec_rsdec_of_ready hs hr, decodeBlock, syndromes_codewords]
  exact if_neg (mt (all_zero_blockSyndromes_iff s).1 hc)

end Ready

/-- The root positions with their magnitudes (43_rs_decoder.md R220, R221). -/
def rootCorrections (s : State) : List (Nat × Byte) := (rootPositions s).map (fun p => (p, magnitude s p))

theorem correctBlock_of_all_roots {s : State} (hl : (solved s).l ≤ s.rs.e.toNat / 2)
    (hroots : (rootPositions s).length = (solved s).l) (u : State) :
    correctBlock u (blockSyndromes s) (solved s).c (solved s).l (s.rs.e.toNat / 2) (blockLength s) =
      endRsdec (storeCorrections (correctCells u (rootCorrections s)) (rootCorrections s)) := by
  rw [rootPositions] at hroots
  rw [correctBlock, if_neg hl.not_gt, if_neg (not_not.2 hroots)]
  rfl

/-- Whether it corrects or faults, what follows the solver writes only CW, EPOS and EMAG. -/
theorem exists_correctBlock (s : State) (syn c : List Byte) (l t n : Nat) :
    ∃ u, correctBlock s syn c l t n = .next u ∧
      ∀ sp, sp ≠ .cw → sp ≠ .epos → sp ≠ .emag → ∀ i, readCell u sp i = readCell s sp i := by
  have hfail : ∃ u, failRsdec .blockUncorrectable (encode .rsdec) s = .next u ∧
      ∀ sp, sp ≠ .cw → sp ≠ .epos → sp ≠ .emag → ∀ i, readCell u sp i = readCell s sp i := by
    obtain ⟨u, hnext, -, hsame⟩ := exists_failRsdec .blockUncorrectable (encode .rsdec) s
    exact ⟨u, hnext, fun sp _ _ _ => hsame sp⟩
  unfold correctBlock
  split
  · exact hfail
  split
  · exact hfail
  · obtain ⟨u, hnext, -, hsame⟩ :=
      exists_endRsdec (storeCorrections (correctCells s (corrections c syn l n)) (corrections c syn l n))
    refine ⟨u, hnext, fun sp hcw hepos hemag i => ?_⟩
    rw [hsame, readCell_storeCorrections, if_neg (fun h => hemag h.1), if_neg (fun h => hepos h.1),
      readCell_correctCells_other _ _ _ hcw]

/-- Settles O47: the syndromes are stored before the outcome is known, and no outcome writes SYN again. -/
theorem rsdecStoresTheSyndromes : Obligations.RsdecStoresTheSyndromes := by
  unfold Obligations.RsdecStoresTheSyndromes
  intro s hs hr
  have hstored (c : List Byte) (l : Nat) {j : Nat} (hj : j < 256) :
      readCell (storeLocator (storeSyndromes s (blockSyndromes s)) c l) .syn j =
        if j < s.rs.e.toNat then syndromeSum (readCell s .cw) (blockLength s) j else 0 := by
    simp [readCell_storeLocator, readCell_storeSyndromes, hj, coef_blockSyndromes]
  by_cases hc : IsCodeword (readCell s .cw) (blockLength s) s.rs.e.toNat
  · obtain ⟨t, hnext, -, hsame⟩ := exists_endRsdec (storeLocator (storeSyndromes s (blockSyndromes s)) [1] 0)
    exact ⟨t, (exec_rsdec_of_codeword hs hr hc).trans hnext, fun j hj => (hsame _ _).trans (hstored _ _ hj)⟩
  · obtain ⟨t, hnext, hsame⟩ := exists_correctBlock (storeSolution s) (blockSyndromes s) (solved s).c (solved s).l
      (s.rs.e.toNat / 2) (blockLength s)
    refine ⟨t, (exec_rsdec_of_not_codeword hs hr hc).trans hnext, fun j hj => ?_⟩
    rw [hsame .syn (by decide) (by decide) (by decide)]
    exact hstored _ _ hj

/-- Settles O48: all syndromes are zero, so RSDEC ends with these and the locator 1 stored. -/
theorem rsdecAcceptsACodeword : Obligations.RsdecAcceptsACodeword := by
  unfold Obligations.RsdecAcceptsACodeword
  intro s hs hr hc
  have hzero (j : Nat) : coef (blockSyndromes s) j = 0 := by
    rw [coef_blockSyndromes]
    split
    · exact hc j ‹_›
    · rfl
  obtain ⟨t, hnext, ht, hsame⟩ := exists_endRsdec (storeLocator (storeSyndromes s (blockSyndromes s)) [1] 0)
  have hcells (sp : Space) (i : Nat) :
      readCell t sp i =
        if sp = .lam ∧ i < 256 then coef [1] i else if sp = .emag ∧ i < 128 then 0
        else if sp = .epos ∧ i < 128 then 0 else if sp = .syn ∧ i < 256 then 0 else readCell s sp i := by
    rw [hsame, readCell_storeLocator, readCell_storeSyndromes, hzero]
  refine ⟨t, (exec_rsdec_of_codeword hs hr hc).trans hnext, ?_, fun i hi => ?_, fun i hi => ?_,
    fun i hi => ⟨?_, ?_⟩, fun sp hsp i => ?_⟩
  · obtain ⟨m, hm⟩ := storeLocator_storeSyndromes_frame s (blockSyndromes s) [1] 0
    rw [ht, hm]
    rfl
  · rw [hcells]
    cases i <;> simp [coef, hi]
  · simp [hcells, hi]
  · simp [hcells, hi]
  · simp [hcells, hi]
  · rcases hsp with rfl | rfl | rfl | rfl | rfl <;> simp [hcells]

/-! ## The correction of a block (43_rs_decoder.md R221) -/

section Corrections
variable (s : State)

theorem nodup_rootPositions : (rootPositions s).Nodup := List.nodup_range.filter _

theorem lt_blockLength_of_mem_rootPositions {p : Nat} (hp : p ∈ rootPositions s) : p < blockLength s :=
  List.mem_range.1 (List.mem_of_mem_filter hp)

theorem coef_magnitudes (k : Nat) :
    coef ((rootCorrections s).map (fun f => f.2)) k = ((rootPositions s).map (magnitude s)).getD k 0 := by
  rw [rootCorrections, List.map_map]
  rfl

/-- A position of a block is below 255, so EPOS keeps all of it (43_rs_decoder.md R211, R221). -/
theorem toNat_coef_positions (hr : RsReady s) (k : Nat) :
    (coef ((rootCorrections s).map (fun f => BitVec.ofNat 8 f.1)) k).toNat = (rootPositions s).getD k 0 := by
  have hpositions : (rootCorrections s).map (fun f => BitVec.ofNat 8 f.1) = (rootPositions s).map (BitVec.ofNat 8) := by
    rw [rootCorrections, List.map_map]
    rfl
  rw [hpositions, coef, List.getD_eq_getElem?_getD, List.getD_eq_getElem?_getD, List.getElem?_map]
  cases hk : (rootPositions s)[k]? with
  | none => rfl
  | some p =>
    obtain ⟨-, -, hn⟩ := hr
    have hp : p < s.rs.k.toNat + s.rs.e.toNat :=
      lt_blockLength_of_mem_rootPositions s (List.mem_of_getElem? hk)
    exact Nat.mod_eq_of_lt (by omega)

/-- The state after the correction of a block at every root position. -/
def correctedBlock : State :=
  storeCorrections (correctCells (storeSolution s) (rootCorrections s)) (rootCorrections s)

theorem correctedBlock_frame (hroots : (rootPositions s).length = (solved s).l) :
    ∃ m, correctedBlock s =
      { s with
        mem := m
        rs := { s.rs with l := BitVec.ofNat 8 (solved s).l, nerr := BitVec.ofNat 7 (solved s).l } } := by
  have hlength : (rootCorrections s).length = (solved s).l := by rw [rootCorrections, List.length_map, hroots]
  obtain ⟨_, hsol⟩ := storeLocator_storeSyndromes_frame s (blockSyndromes s) (solved s).c (solved s).l
  obtain ⟨m, hcor⟩ := storeCorrections_correctCells_frame (storeSolution s) (rootCorrections s)
  exact ⟨m, by rw [correctedBlock, hcor, hlength, storeSolution, hsol]⟩

theorem readCell_correctedBlock_cw (i : Nat) :
    readCell (correctedBlock s) .cw i =
      if i ∈ rootPositions s then readCell s .cw i ^^^ magnitude s i else readCell s .cw i := by
  have hcw : readCell (storeSolution s) .cw i = readCell s .cw i := by simp [readCell_storeSolution]
  rw [correctedBlock, readCell_storeCorrections, if_neg (by simp), if_neg (by simp), rootCorrections,
    readCell_correctCells_map _ (nodup_rootPositions s), hcw]

theorem readCell_correctedBlock_epos {k : Nat} (hk : k < 128) :
    readCell (correctedBlock s) .epos k = coef ((rootCorrections s).map (fun f => BitVec.ofNat 8 f.1)) k := by
  rw [correctedBlock, readCell_storeCorrections, if_neg (by simp), if_pos ⟨rfl, hk⟩]

theorem readCell_correctedBlock_emag {k : Nat} (hk : k < 128) :
    readCell (correctedBlock s) .emag k = coef ((rootCorrections s).map (fun f => f.2)) k := by
  rw [correctedBlock, readCell_storeCorrections, if_pos ⟨rfl, hk⟩]

theorem readCell_correctedBlock_other {sp : Space} (hcw : sp ≠ .cw) (hepos : sp ≠ .epos) (hemag : sp ≠ .emag)
    (i : Nat) : readCell (correctedBlock s) sp i = readCell (storeSolution s) sp i := by
  rw [correctedBlock, readCell_storeCorrections, if_neg (fun h => hemag h.1), if_neg (fun h => hepos h.1),
    readCell_correctCells_other _ _ _ hcw]

end Corrections

theorem exec_rsdec_of_all_roots {s : State} (hs : s.err = false) (hr : RsReady s)
    (hc : ¬ IsCodeword (readCell s .cw) (blockLength s) s.rs.e.toNat) (hl : (solved s).l ≤ s.rs.e.toNat / 2)
    (hroots : (rootPositions s).length = (solved s).l) :
    exec .rsdec s = endRsdec (correctedBlock s) := by
  rw [exec_rsdec_of_not_codeword hs hr hc, correctBlock_of_all_roots hl hroots, correctedBlock]

/-- Settles O49: both failure tests pass, so the next state is `correctedBlock` with the end of RSDEC. -/
theorem rsdecCorrectsTheRootPositions : Obligations.RsdecCorrectsTheRootPositions := by
  unfold Obligations.RsdecCorrectsTheRootPositions
  intro s hs hr hc hl hroots
  obtain ⟨t, hnext, ht, hsame⟩ := exists_endRsdec (correctedBlock s)
  have hother {sp : Space} (hcw : sp ≠ .cw) (hepos : sp ≠ .epos) (hemag : sp ≠ .emag) (i : Nat) :
      readCell t sp i = readCell (storeSolution s) sp i :=
    (hsame sp i).trans (readCell_correctedBlock_other s hcw hepos hemag i)
  refine ⟨t, (exec_rsdec_of_all_roots hs hr hc hl hroots).trans hnext, ?_, fun i => ?_, fun i hi => ?_,
    fun k hk => ?_, fun k hk => ?_, fun sp hsp i => ?_⟩
  · obtain ⟨m, hm⟩ := correctedBlock_frame s hroots
    rw [ht, hm]
  · rw [hsame, readCell_correctedBlock_cw]
  · rw [hother (by decide) (by decide) (by decide), readCell_storeSolution, if_pos ⟨rfl, hi⟩]
  · rw [hsame, readCell_correctedBlock_epos s hk, toNat_coef_positions s hr]
  · rw [hsame, readCell_correctedBlock_emag s hk, coef_magnitudes]
  · rcases hsp with rfl | rfl | rfl | rfl <;>
      rw [hother (by decide) (by decide) (by decide)] <;> simp [readCell_storeSolution]

end Sys2Proof.Machine
end

section
/-! PROOFS. The system commands (44_system_commands.md R240 to R247): their words, and what each writes, responds and
leaves unchanged. -/

-- One declaration at a time: the stacks of parallel elaboration can exceed the memory that the check allows.
set_option Elab.async false

namespace Sys2Proof

/-! ## The words of CSRRD, CSRWR and SETPTR (30_encoding.md R91) -/

/-- The lowest field of a word is added as it is. -/
theorem toNat_or_place_zero {n : Nat} (w : Word32) (v : BitVec n) (hn : n ≤ 32) (hw : w.toNat % 2 ^ n = 0) :
    (w ||| place v 0).toNat = w.toNat + v.toNat :=
  (toNat_or_place w v hn hw).trans (congrArg _ (Nat.mul_one _))

theorem toNat_encode_csrrd (a : BitVec 8) : (encode (.csrrd a)).toNat = 0x02000000 + a.toNat * 0x10000 :=
  toNat_or_place 0x02000000 a (by decide) (by decide)

theorem toNat_encode_csrwr (a : BitVec 8) (v : BitVec 16) :
    (encode (.csrwr a v)).toNat = 0x03000000 + a.toNat * 0x10000 + v.toNat := by
  have hcsr : ((0x03000000 : Word32) ||| place a 16).toNat = 0x03000000 + a.toNat * 0x10000 :=
    toNat_or_place 0x03000000 a (by decide) (by decide)
  rw [encode, toNat_or_place_zero _ v (by decide) (by omega), hcsr]

theorem toNat_encode_setptr (v : BitVec 24) : (encode (.setptr v)).toNat = 0x04000000 + v.toNat :=
  toNat_or_place_zero 0x04000000 v (by decide) (by decide)

end Sys2Proof

namespace Sys2Proof.Machine

/-! ## The ends of the system commands -/

/-- A command that succeeds delivers its data, zero-extended, and changes nothing else (30_encoding.md R93). -/
theorem respond_eq_next (s : State) (d : BitVec 24) :
    respond s d = .next { s with rspOut := s.rspOut ++ [d.setWidth 32] } := by
  rw [respond, responseWord_success, deliver]

/-- A refusal has no effect but its response (60_exceptions.md R264). -/
theorem refuse_eq_refusedState (s : State) : refuse s = .next (refusedState s) := rfl

/-- PTR counts modulo 2^24 (20_memory.md R64). -/
theorem toNat_advancePtr_ptr (s : State) : (advancePtr s).ptr.toNat = (s.ptr.toNat + 1) % 2 ^ 24 := by
  rw [advancePtr_ptr, BitVec.toNat_add]
  rfl

/-! ## NOP, CLRERR and SETPTR -/

/-- Settles O27: without a latched error it only responds. -/
theorem nopOnlyResponds : Obligations.NopOnlyResponds := by
  unfold Obligations.NopOnlyResponds
  refine ⟨rfl, fun s => ⟨fun hs => ?_, fun hs => ?_⟩⟩
  · rw [exec, execNop, unlessLatched_of_clear hs, respond_eq_next]
    rfl
  · rw [exec, execNop, unlessLatched_of_latched hs, refuse_eq_refusedState]

/-- Settles O28: it is no command that the latch refuses, so one equation covers both values of ERR. -/
theorem clrerrClearsTheLatch : Obligations.ClrerrClearsTheLatch := by
  unfold Obligations.ClrerrClearsTheLatch
  refine ⟨rfl, fun s => ?_⟩
  rw [exec, execClrerr, respond_eq_next]
  rfl

/-- Settles O33: no extent is looked at. -/
theorem setptrSetsThePointer : Obligations.SetptrSetsThePointer := by
  unfold Obligations.SetptrSetsThePointer
  refine fun v => ⟨toNat_encode_setptr v, fun s hs => ?_⟩
  rw [exec, execSetptr, unlessLatched_of_clear hs, respond_eq_next]
  rfl

/-! ## CSRRD (44_system_commands.md R243) -/

theorem exec_csrrd_addr (c : Csr) (s : State) :
    exec (.csrrd c.addr) s = .next { s with rspOut := s.rspOut ++ [(csrValue s c).setWidth 32] } := by
  rw [exec, execCsrrd, ofAddr_addr]
  exact respond_eq_next s _

theorem exec_csrrd_of_unassigned {a : BitVec 8} (ha : ∀ c : Csr, c.addr ≠ a) (s : State) :
    exec (.csrrd a) s = unlessLatched s (raiseFault .badCsr (encode (.csrrd a))) := by
  rw [exec, execCsrrd, ofAddr_eq_none.2 ha]

/-- Settles O29: a read of an assigned register does not look at ERR, one of an unassigned address does. -/
theorem csrrdReadsAssignedRegisters : Obligations.CsrrdReadsAssignedRegisters := by
  unfold Obligations.CsrrdReadsAssignedRegisters
  refine ⟨toNat_encode_csrrd, exec_csrrd_addr, fun a s ha => ?_⟩
  rw [exec_csrrd_of_unassigned ha]
  refine ⟨fun hs => ?_, fun hs => ?_⟩
  · rw [unlessLatched_of_clear hs]
    exact raiseFault_eq_faulted .badCsr _ s
  · rw [unlessLatched_of_latched hs, refuse_eq_refusedState]

/-! ## CSRWR (44_system_commands.md R244) -/

/-- The read-write registers are those at the read-write addresses. -/
theorem writable_iff_readWriteCsr (c : Csr) : c.writable = true ↔ ReadWriteCsr c.addr := by
  unfold ReadWriteCsr
  cases c with
  | gsU i | gsV i | gsX i | gsY i => fin_cases i <;> decide
  | _ => decide

/-- No register reads the responses. -/
theorem csrValue_deliver (s : State) (w : Word32) (c : Csr) : csrValue (deliver s w) c = csrValue s c := by
  cases c <;> rfl

/-- Writing a register touches no space and not the name of their unspecified contents. -/
theorem sameCells_writeCsr (s : State) (c : Csr) (v : BitVec 16) : SameCells s (writeCsr s c v) := by
  rw [writeCsr_frame]
  exact fun _ _ => rfl

theorem exec_csrwr_addr {c : Csr} (hc : c.writable = true) (v : BitVec 16) {s : State} (hs : s.err = false) :
    exec (.csrwr c.addr v) s = .next (deliver (writeCsr s c v) 0) := by
  rw [exec, execCsrwr, unlessLatched_of_clear hs, ofAddr_addr]
  exact if_pos hc

theorem exec_csrwr_of_not_readWrite {a : BitVec 8} (ha : ¬ ReadWriteCsr a) (v : BitVec 16) {s : State}
    (hs : s.err = false) : exec (.csrwr a v) s = .next (faulted s 0x02 (encode (.csrwr a v))) := by
  have hfault := raiseFault_eq_faulted .badCsr (encode (.csrwr a v)) s
  rw [exec, execCsrwr, unlessLatched_of_clear hs]
  split
  next c hc =>
    have hro : ¬ c.writable = true := fun h => ha (ofAddr_eq_some.1 hc ▸ (writable_iff_readWriteCsr c).1 h)
    exact (if_neg hro).trans hfault
  next => exact hfault

/-- Settles O32: the next state is the write with its response, and `writeCsr` changes one register alone. -/
theorem csrwrStoresTheValue : Obligations.CsrwrStoresTheValue := by
  unfold Obligations.CsrwrStoresTheValue
  refine ⟨toNat_encode_csrwr, fun c v s hs hc => ?_, fun a v s hs ha => exec_csrwr_of_not_readWrite ha v hs⟩
  refine ⟨_, exec_csrwr_addr hc v hs, ?_, fun c' hne => ?_, ?_, sameCells_writeCsr s c v⟩
  · rw [csrValue_deliver, csrValue_writeCsr_same s c v hc]
  · rw [csrValue_deliver, csrValue_writeCsr_other s c c' v hne]
  · rw [writeCsr_frame]
    rfl

/-! ## LD (44_system_commands.md R246) -/

section Clear
variable {s : State} (hs : s.err = false) (sp : Space)
include hs

theorem exec_ld_of_lt (h : s.ptr.toNat < extent s sp) :
    exec (.ld sp) s = .next (deliver (advancePtr s) ((readCell s sp s.ptr.toNat).setWidth 32)) := by
  rw [exec, execLd, unlessLatched_of_clear hs, if_neg (Nat.not_le.2 h), respond, responseWord_success,
    BitVec.setWidth_setWidth (by decide)]

theorem exec_ld_of_le (h : extent s sp ≤ s.ptr.toNat) :
    exec (.ld sp) s = .next (faulted s 0x03 (encode (.ld sp))) := by
  rw [exec, execLd, unlessLatched_of_clear hs, if_pos h]
  exact raiseFault_eq_faulted .addressOutOfRange _ s

end Clear

/-- Settles O35: below the extent the only writes are PTR's advance and the response. -/
theorem ldReturnsTheCellAtPtr : Obligations.LdReturnsTheCellAtPtr := by
  unfold Obligations.LdReturnsTheCellAtPtr
  refine fun sp => ⟨toNat_or_place_rd 0x05000000 (by decide) sp.selector, fun s hs => ⟨fun h => ?_, ?_⟩⟩
  · exact ⟨_, exec_ld_of_lt hs sp h, rfl, toNat_advancePtr_ptr s, fun _ _ => rfl⟩
  · exact exec_ld_of_le hs sp

/-! ## ST (44_system_commands.md R247) -/

theorem oneBit_iff (sp : Space) : sp.oneBit = true ↔ sp = .bm ∨ sp = .mm := by
  cases sp <;> decide

theorem hostWritable_iff (sp : Space) : hostWritable sp = true ↔ sp = .cw ∨ sp = .px ∨ sp = .bm := by
  cases sp <;> decide

/-- The ill-formed stores are those of more than one bit to a space of one-bit cells. -/
theorem not_wellFormed_st_iff (sp : Space) (v : Byte) :
    ¬ WellFormed (.st sp v) ↔ (sp = .bm ∨ sp = .mm) ∧ 2 ≤ v.toNat := by
  rw [wellFormed_st_iff, oneBit_iff, Classical.not_imp, Nat.not_le]
  rfl

/-- A cell keeps all of a value that a well-formed ST stores. -/
theorem fitCell_of_wellFormed {sp : Space} {v : Byte} (h : WellFormed (.st sp v)) : fitCell sp v = v := by
  rw [wellFormed_st_iff] at h
  unfold fitCell
  split
  next hbit =>
    have hv : v.toNat < 2 ^ 1 := Nat.lt_succ_of_le (h hbit)
    refine BitVec.eq_of_toNat_eq ?_
    rw [BitVec.toNat_and]
    exact (Nat.and_two_pow_sub_one_eq_mod _ 1).trans (Nat.mod_eq_of_lt hv)
  next => rfl

section Clear
variable {s : State} (hs : s.err = false) {sp : Space} {v : Byte}
include hs

theorem exec_st_of_illFormed (hwf : ¬ WellFormed (.st sp v)) :
    exec (.st sp v) s = .next (faulted s 0x01 (encode (.st sp v))) := by
  rw [exec, execSt, unlessLatched_of_clear hs, if_pos hwf]
  exact raiseFault_eq_faulted .illegalCommand _ s

/-- The read-only space and the extent are two checks with one fault. -/
theorem exec_st_of_outOfRange (hwf : WellFormed (.st sp v))
    (h : hostWritable sp = false ∨ extent s sp ≤ s.ptr.toNat) :
    exec (.st sp v) s = .next (faulted s 0x03 (encode (.st sp v))) := by
  have hfault := raiseFault_eq_faulted .addressOutOfRange (encode (.st sp v)) s
  rw [exec, execSt, unlessLatched_of_clear hs, if_neg (not_not.2 hwf)]
  split
  next => exact hfault
  next hrw => exact (if_pos (h.resolve_left hrw)).trans hfault

theorem exec_st_of_inRange (hwf : WellFormed (.st sp v)) (hrw : hostWritable sp = true)
    (h : s.ptr.toNat < extent s sp) :
    exec (.st sp v) s = .next (deliver (advancePtr (writeCell s sp s.ptr.toNat v)) 0) := by
  rw [exec, execSt, unlessLatched_of_clear hs, if_neg (not_not.2 hwf), if_neg (ne_false_of_eq_true hrw),
    if_neg (Nat.not_le.2 h), respond, responseWord_success]
  rfl

end Clear

/-- The cells after a well-formed ST are those after its one write (20_memory.md R70). -/
theorem readCell_stored {sp : Space} {v : Byte} (hwf : WellFormed (.st sp v)) (s : State) (sp' : Space) (i : Nat) :
    readCell (deliver (advancePtr (writeCell s sp s.ptr.toNat v)) 0) sp' i =
      if sp' = sp ∧ i = s.ptr.toNat then v else readCell s sp' i := by
  have hwrite := readCell_writeCell s sp sp' s.ptr.toNat i v
  rw [fitCell_of_wellFormed hwf] at hwrite
  exact hwrite

/-- Settles O36: each case is one outcome of ST, and the last one writes one cell. -/
theorem stWritesTheCellAtPtr : Obligations.StWritesTheCellAtPtr := by
  unfold Obligations.StWritesTheCellAtPtr
  refine fun sp v => ⟨toNat_or_place_rd_imm8 0x06000000 (by decide) sp.selector v, fun s hs => ?_⟩
  split
  next hbad => exact exec_st_of_illFormed hs ((not_wellFormed_st_iff sp v).2 hbad)
  next hok =>
    have hwf : WellFormed (.st sp v) := not_not.1 (mt (not_wellFormed_st_iff sp v).1 hok)
    split
    next hout =>
      exact exec_st_of_outOfRange hs hwf
        (hout.imp_left fun hro => Bool.eq_false_iff.2 (mt (hostWritable_iff sp).1 hro))
    next hin =>
      obtain ⟨hrw, hext⟩ := not_or.1 hin
      refine ⟨_, exec_st_of_inRange hs hwf ((hostWritable_iff sp).2 (not_not.1 hrw)) (Nat.not_le.1 hext), rfl,
        toNat_advancePtr_ptr (writeCell s sp s.ptr.toNat v), ?_, fun i hi => ?_, fun sp' hsp i => ?_⟩
      · rw [readCell_stored hwf, if_pos ⟨rfl, rfl⟩]
      · rw [readCell_stored hwf, if_neg fun h => hi h.2]
      · rw [readCell_stored hwf, if_neg fun h => hsp h.1]

end Sys2Proof.Machine
end

section
/-! PROOFS. What the error latch lets through (60_exceptions.md R264): the words that decode to CLRERR and to CSRRD, the
assigned CSR addresses, and the refusal of every other word. -/

namespace Sys2Proof

/-! ## The words of CLRERR and CSRRD (30_encoding.md R94) -/

theorem eq_row_of_mnemonic_clrerr :
    ∀ row ∈ commandTable, row.mnemonic = "CLRERR" → row = ⟨"CLRERR", 0xFFFFFFFF, 0x01000000⟩ := by decide

theorem eq_row_of_mnemonic_csrrd :
    ∀ row ∈ commandTable, row.mnemonic = "CSRRD" → row = ⟨"CSRRD", 0xFF00FFFF, 0x02000000⟩ := by decide

/-- A legal word fits the row of its mnemonic. -/
theorem exists_fits_of_decode {w : Word32} {i : Instr} (h : decode w = .ok i) :
    ∃ row ∈ commandTable, row.mnemonic = i.mnemonic ∧ w &&& row.mask = row.pattern := by
  obtain ⟨row, ⟨hrow, -⟩, hverdict, hm⟩ := (exists_decode_eq_ok_iff w i.mnemonic).1 ⟨i, h, rfl⟩
  obtain ⟨hfit, -⟩ := (row.verdict_eq_none_iff w).1 hverdict
  exact ⟨row, hrow, hm, hfit⟩

theorem decode_eq_clrerr_iff (w : Word32) : decode w = .ok .clrerr ↔ w = 0x01000000 := by
  constructor
  · intro h
    obtain ⟨row, hrow, hm, hfit⟩ := exists_fits_of_decode h
    rw [eq_row_of_mnemonic_clrerr row hrow hm] at hfit
    exact (BitVec.and_allOnes (x := w)).symm.trans hfit
  · rintro rfl
    rfl

theorem decode_of_fits_csrrd {w : Word32} (h : w &&& 0xFF00FFFF = 0x02000000) :
    decode w = .ok (.csrrd (fieldCsr w)) := by
  have hr : HasRow w ⟨"CSRRD", 0xFF00FFFF, 0x02000000⟩ := hasRow_of_fits (by simp [commandTable]) h
  have hop : fieldOpcode w = 0x02 := hr.2
  have hzero : w &&& 0x0000FFFF = 0 := hr.fits_iff.1 h
  rw [decode, hop]
  exact if_pos hzero

theorem decode_eq_csrrd_iff (w : Word32) (a : BitVec 8) :
    decode w = .ok (.csrrd a) ↔ w &&& 0xFF00FFFF = 0x02000000 ∧ fieldCsr w = a := by
  constructor
  · intro h
    obtain ⟨row, hrow, hm, hfit⟩ := exists_fits_of_decode h
    rw [eq_row_of_mnemonic_csrrd row hrow hm] at hfit
    have hinstr := (decode_of_fits_csrrd hfit).symm.trans h
    exact ⟨hfit, by simpa using hinstr⟩
  · rintro ⟨hfit, rfl⟩
    exact decode_of_fits_csrrd hfit

end Sys2Proof

namespace Sys2Proof.Machine

/-! ## The assigned addresses (10_state.md R42) -/

theorem assignedCsr_addr (c : Csr) : AssignedCsr c.addr := by
  unfold AssignedCsr
  cases c with
  | gsU i | gsV i | gsX i | gsY i => fin_cases i <;> decide
  | _ => decide

theorem isSome_ofAddr_of_assignedCsr : ∀ a : BitVec 8, AssignedCsr a → (Csr.ofAddr a).isSome := by
  unfold AssignedCsr
  decide

theorem assignedCsr_iff (a : BitVec 8) : AssignedCsr a ↔ ∃ c : Csr, c.addr = a := by
  constructor
  · intro h
    obtain ⟨c, hc⟩ := Option.isSome_iff_exists.1 (isSome_ofAddr_of_assignedCsr a h)
    exact ⟨c, ofAddr_eq_some.1 hc⟩
  · rintro ⟨c, rfl⟩
    exact assignedCsr_addr c

/-! ## Refusal (60_exceptions.md R264) -/

/-- A step on the word of a command (30_encoding.md R95). -/
theorem step_of_decode_ok {s : State} {w : Word32} {rest : List HostAction} {i : Instr}
    (hp : s.portIn = .command w :: rest) (hd : decode w = .ok i) : step s = exec i { s with portIn := rest } := by
  simp [step, takeAction, hp, hd]

theorem exec_csrrd_of_latched_of_unassigned {s : State} (hs : s.err = true) {a : BitVec 8} (ha : ¬ AssignedCsr a) :
    exec (.csrrd a) s = .next (refusedState s) := by
  rw [exec_csrrd_of_unassigned (not_exists.1 (mt (assignedCsr_iff a).2 ha)), unlessLatched_of_latched hs,
    refuse_eq_refusedState]

/-- Every command but CLRERR and a read of an assigned register is refused while an error is latched. -/
theorem exec_of_latched {s : State} (hs : s.err = true) {i : Instr} (hclr : i ≠ .clrerr)
    (hread : ∀ a, i = .csrrd a → ¬ AssignedCsr a) : exec i s = .next (refusedState s) := by
  by_cases hi : ∃ a, i = .csrrd a
  · obtain ⟨a, rfl⟩ := hi
    exact exec_csrrd_of_latched_of_unassigned hs (hread a rfl)
  · obtain ⟨body, hbody⟩ := exec_eq_unlessLatched hclr (not_exists.1 hi)
    rw [hbody, unlessLatched_of_latched hs, refuse_eq_refusedState]

/-- No register reads the port. -/
theorem csrValue_with_portIn (s : State) (rest : List HostAction) (c : Csr) :
    csrValue { s with portIn := rest } c = csrValue s c := by
  cases c <;> rfl

theorem illegalWord_of_latched {s : State} (hs : s.err = true) (cmd : Word32) :
    illegalWord cmd s = .next (refusedState s) := by
  rw [illegalWord, unlessLatched_of_latched hs, refuse_eq_refusedState]

/-- Settles O7: a word is illegal, or CLRERR, or a CSRRD, or a command that the latch refuses. -/
theorem latchRefusesEveryOtherWord : Obligations.LatchRefusesEveryOtherWord := by
  unfold Obligations.LatchRefusesEveryOtherWord
  intro s w rest hport hs
  refine ⟨fun hclr hread => ?_, fun hw => ?_, fun hfit hassigned => ?_⟩
  · cases hd : decode w with
    | error e =>
      rw [step_of_decode_error hport hd]
      exact illegalWord_of_latched (s := { s with portIn := rest }) hs w
    | ok i =>
      rw [step_of_decode_ok hport hd]
      refine exec_of_latched (s := { s with portIn := rest }) hs ?_ ?_
      · rintro rfl
        exact hclr ((decode_eq_clrerr_iff w).1 hd)
      · rintro a rfl ha
        obtain ⟨hfit, rfl⟩ := (decode_eq_csrrd_iff w a).1 hd
        exact hread ⟨hfit, ha⟩
  · rw [step_of_decode_ok hport ((decode_eq_clrerr_iff w).2 hw), exec, execClrerr, respond_eq_next]
    rfl
  · obtain ⟨c, hc⟩ := (assignedCsr_iff _).1 hassigned
    refine ⟨c, hc, ?_⟩
    rw [step_of_decode_ok hport (decode_of_fits_csrrd hfit), ← hc, exec_csrrd_addr, csrValue_with_portIn]

end Sys2Proof.Machine
end

section
/-! PROOFS. What a fault depends on (60_exceptions.md R262): the commands that never fault, and two executions of one
command in states that differ only in registers, cells and the port. -/

namespace Sys2Proof.Machine

/-! ## The commands that never fault -/

/-- A response raises no error. -/
theorem exists_respond_of_clear {s : State} (hs : s.err = false) (d : BitVec 24) :
    ∃ t, respond s d = .next t ∧ t.err = false := ⟨_, rfl, hs⟩

theorem exists_writeAndRespond_of_clear {s : State} (hs : s.err = false) (rd : Reg) (v : Byte) :
    ∃ t, writeAndRespond s rd v = .next t ∧ t.err = false :=
  exists_respond_of_clear (s := writeReg s rd v) hs 0

/-- The nine commands that R262 names end with a response, whatever the state without a latched error. -/
theorem exists_exec_of_neverFaults {i : Instr} {s : State} (hs : s.err = false)
    (hi : i.mnemonic ∈ ["NOP", "CLRERR", "SETPTR", "GFLI", "GFMV", "GFRD", "GFADD", "GFMUL", "GFEXP"]) :
    ∃ t, exec i s = .next t ∧ t.err = false := by
  cases i with
  | nop =>
    rw [exec, execNop, unlessLatched_of_clear hs]
    exact exists_respond_of_clear hs 0
  | clrerr => exact exists_respond_of_clear (s := clearLatch s) rfl 0
  | setptr v =>
    rw [exec, execSetptr, unlessLatched_of_clear hs]
    exact exists_respond_of_clear (s := { s with ptr := v }) hs 0
  | gfli rd imm8 =>
    rw [exec_gfli_of_clear hs]
    exact exists_writeAndRespond_of_clear hs rd _
  | gfmv rd ra =>
    rw [exec_gfmv_of_clear hs]
    exact exists_writeAndRespond_of_clear hs rd _
  | gfrd ra =>
    rw [exec_gfrd_of_clear hs]
    exact exists_respond_of_clear hs _
  | gfadd rd ra rb =>
    rw [exec_gfadd_of_clear hs]
    exact exists_writeAndRespond_of_clear hs rd _
  | gfmul rd ra rb =>
    rw [exec_gfmul_of_clear hs]
    exact exists_writeAndRespond_of_clear hs rd _
  | gfexp rd ra =>
    rw [exec_gfexp_of_clear hs]
    exact exists_writeAndRespond_of_clear hs rd _
  | _ => simp [Instr.mnemonic] at hi

/-! ## Two executions that leave the same latch -/

/-- The error latch and its capture registers are the same in both states. -/
def SameLatch (s s' : State) : Prop := s'.err = s.err ∧ s'.errcode = s.errcode ∧ s'.errcmd = s.errcmd

/-- Whatever two executions answer, the latch after both is the same. -/
def AgreeOnLatch (r r' : Result) : Prop := ∀ t t', r = .next t → r' = .next t' → SameLatch t t'

section Ends
variable {s s' : State}

theorem agreeOnLatch_respond (h : SameLatch s s') (d d' : BitVec 24) : AgreeOnLatch (respond s d) (respond s' d') := by
  intro t t' ht ht'
  rw [respond_next ht, respond_next ht']
  exact h

/-- A fault leaves the same latch, whatever the state in which it is raised. -/
theorem agreeOnLatch_raiseFault (code : FaultCode) (cmd : Word32) (s s' : State) :
    AgreeOnLatch (raiseFault code cmd s) (raiseFault code cmd s') := by
  intro t t' ht ht'
  rw [raiseFault_next ht, raiseFault_next ht']
  exact ⟨rfl, rfl, rfl⟩

/-- A refusal leaves the latch, so of a refusable command only its meaning has to be looked at. -/
theorem agreeOnLatch_unlessLatched (h : SameLatch s s') {body : State → Result}
    (hbody : AgreeOnLatch (body s) (body s')) : AgreeOnLatch (unlessLatched s body) (unlessLatched s' body) := by
  have herr : s'.err = s.err := h.1
  intro t t' ht ht'
  cases hs : s.err with
  | true =>
    rw [unlessLatched_of_latched hs] at ht
    rw [unlessLatched_of_latched (herr.trans hs)] at ht'
    rw [refuse_next ht, refuse_next ht']
    exact h
  | false =>
    rw [unlessLatched_of_clear hs] at ht
    rw [unlessLatched_of_clear (herr.trans hs)] at ht'
    exact hbody t t' ht ht'

theorem agreeOnLatch_writeAndRespond (h : SameLatch s s') (rd : Reg) (v v' : Byte) :
    AgreeOnLatch (writeAndRespond s rd v) (writeAndRespond s' rd v') :=
  agreeOnLatch_respond (s := writeReg s rd v) (s' := writeReg s' rd v') h 0 0

theorem agreeOnLatch_writeOrGfZero (h : SameLatch s s') (cmd : Word32) (rd : Reg) (o : Option Byte) :
    AgreeOnLatch (writeOrGfZero s cmd rd o) (writeOrGfZero s' cmd rd o) := by
  cases o with
  | some v => exact agreeOnLatch_writeAndRespond h rd v v
  | none => exact agreeOnLatch_raiseFault .gfZero cmd s s'

theorem agreeOnLatch_endBinrun (h : SameLatch s s') : AgreeOnLatch (endBinrun s) (endBinrun s') :=
  agreeOnLatch_respond (s := setBinok s true) (s' := setBinok s' true) h 0 0

theorem agreeOnLatch_failBinrun (code : FaultCode) (cmd : Word32) (s s' : State) :
    AgreeOnLatch (failBinrun code cmd s) (failBinrun code cmd s') :=
  agreeOnLatch_raiseFault code cmd (setBinok s false) (setBinok s' false)

theorem agreeOnLatch_endGsrun (h : SameLatch s s') : AgreeOnLatch (endGsrun s) (endGsrun s') :=
  agreeOnLatch_respond (s := setGsok s true) (s' := setGsok s' true) h 0 0

theorem agreeOnLatch_failGsrun (code : FaultCode) (cmd : Word32) (s s' : State) :
    AgreeOnLatch (failGsrun code cmd s) (failGsrun code cmd s') :=
  agreeOnLatch_raiseFault code cmd (setGsok s false) (setGsok s' false)

theorem agreeOnLatch_endRsdec (h : SameLatch s s') : AgreeOnLatch (endRsdec s) (endRsdec s') :=
  agreeOnLatch_respond (s := setRsok s true) (s' := setRsok s' true) h 0 0

theorem agreeOnLatch_failRsdec (code : FaultCode) (cmd : Word32) (s s' : State) :
    AgreeOnLatch (failRsdec code cmd s) (failRsdec code cmd s') :=
  agreeOnLatch_raiseFault code cmd (setRsok s false) (setRsok s' false)

end Ends

theorem sameLatch_writeCsr (s : State) (c : Csr) (v : BitVec 16) : SameLatch s (writeCsr s c v) := by
  rw [writeCsr_frame]
  exact ⟨rfl, rfl, rfl⟩

theorem SameLatch.trans {s t u : State} (h : SameLatch s t) (h' : SameLatch t u) : SameLatch s u :=
  ⟨h'.1.trans h.1, h'.2.1.trans h.2.1, h'.2.2.trans h.2.2⟩

theorem SameLatch.symm {s t : State} (h : SameLatch s t) : SameLatch t s := ⟨h.1.symm, h.2.1.symm, h.2.2.symm⟩

/-! ## States that differ only in what no check of a parameter reads -/

/-- The states have the same flags, PTR and CSRs: they differ in no more than registers, cells and the port. -/
def SameControl (s s' : State) : Prop :=
  s' = { s with gpr := s'.gpr, mem := s'.mem, fill := s'.fill, portIn := s'.portIn, rspOut := s'.rspOut }

namespace SameControl
variable {s s' : State} (h : SameControl s s')
include h

theorem sameLatch : SameLatch s s' := by
  rw [h]
  exact ⟨rfl, rfl, rfl⟩

theorem ptr_eq : s'.ptr = s.ptr := by rw [h]

theorem img_eq : s'.img = s.img := by rw [h]

theorem gs_eq : s'.gs = s.gs := by rw [h]

theorem rs_eq : s'.rs = s.rs := by rw [h]

theorem extent_eq (sp : Space) : extent s' sp = extent s sp := extent_congr (by rw [h]) sp

theorem imageTooLarge_eq : imageTooLarge s' = imageTooLarge s := by
  rw [h]
  rfl

theorem binBadParameter_eq : binBadParameter s' = binBadParameter s := by
  rw [h]
  rfl

theorem samplerCheck_eq : samplerCheck s' = samplerCheck s := by
  rw [h]
  rfl

theorem transform_eq : transform s' = transform s := by
  rw [h]
  rfl

theorem moduleOrder_eq : moduleOrder s' = moduleOrder s := by
  rw [h]
  rfl

theorem rsBadParameter_eq : rsBadParameter s' = rsBadParameter s := by
  rw [h]
  rfl

/-! ## The system commands and the field commands -/

theorem agree_execCsrrd (csr : BitVec 8) : AgreeOnLatch (execCsrrd csr s) (execCsrrd csr s') := by
  unfold execCsrrd
  cases Csr.ofAddr csr with
  | some c => exact agreeOnLatch_respond h.sameLatch _ _
  | none => exact agreeOnLatch_unlessLatched h.sameLatch (agreeOnLatch_raiseFault _ _ s s')

theorem agree_execCsrwr (csr : BitVec 8) (imm16 : BitVec 16) :
    AgreeOnLatch (execCsrwr csr imm16 s) (execCsrwr csr imm16 s') := by
  refine agreeOnLatch_unlessLatched h.sameLatch ?_
  cases Csr.ofAddr csr with
  | none => exact agreeOnLatch_raiseFault _ _ s s'
  | some c =>
    dsimp only
    split
    · have hlatch := ((sameLatch_writeCsr s c imm16).symm.trans h.sameLatch).trans (sameLatch_writeCsr s' c imm16)
      exact agreeOnLatch_respond hlatch 0 0
    · exact agreeOnLatch_raiseFault _ _ s s'

theorem agree_execLd (sp : Space) : AgreeOnLatch (execLd sp s) (execLd sp s') := by
  refine agreeOnLatch_unlessLatched h.sameLatch ?_
  rw [h.extent_eq, h.ptr_eq]
  split
  · exact agreeOnLatch_raiseFault _ _ s s'
  · exact agreeOnLatch_respond (s := advancePtr s) (s' := advancePtr s') h.sameLatch _ _

theorem agree_execSt (sp : Space) (imm8 : Byte) : AgreeOnLatch (execSt sp imm8 s) (execSt sp imm8 s') := by
  refine agreeOnLatch_unlessLatched h.sameLatch ?_
  rw [h.extent_eq, h.ptr_eq]
  split
  · exact agreeOnLatch_raiseFault _ _ s s'
  split
  · exact agreeOnLatch_raiseFault _ _ s s'
  split
  · exact agreeOnLatch_raiseFault _ _ s s'
  · exact agreeOnLatch_respond (s := advancePtr (writeCell s sp s.ptr.toNat imm8))
      (s' := advancePtr (writeCell s' sp s.ptr.toNat imm8)) h.sameLatch 0 0

/-! ## The binarizer and the sampler -/

/-- BINRUN's two checks read CSRs and MAXPIX alone (41_binarizer.md R162). -/
theorem agree_execBinrun : AgreeOnLatch (execBinrun s) (execBinrun s') := by
  refine agreeOnLatch_unlessLatched h.sameLatch ?_
  rw [h.imageTooLarge_eq, h.binBadParameter_eq]
  split
  · exact agreeOnLatch_failBinrun _ _ s s'
  split
  · exact agreeOnLatch_failBinrun _ _ s s'
  · exact agreeOnLatch_endBinrun (by simpa [SameLatch] using h.sameLatch)

/-- Which module maps OUT first is a matter of the CSRs; only the samples before it are read from BM. -/
theorem sampleModules_snd_eq (m : Mat3) (js : List Nat) : (sampleModules s' m js).2 = (sampleModules s m js).2 := by
  induction js with
  | nil => rfl
  | cons j js ih =>
    simp only [sampleModules, h.img_eq, h.gs_eq]
    split
    · rfl
    · exact ih

theorem agree_sampleGrid : AgreeOnLatch (sampleGrid s) (sampleGrid s') := by
  dsimp only [sampleGrid]
  rw [h.transform_eq, h.moduleOrder_eq, h.sampleModules_snd_eq]
  cases (sampleModules s (transform s) (moduleOrder s)).2 with
  | none => exact agreeOnLatch_endGsrun (s := writeFirst s _ _) (s' := writeFirst s' _ _) h.sameLatch
  | some j => exact agreeOnLatch_failGsrun _ _ _ _

theorem agree_execGsrun : AgreeOnLatch (execGsrun s) (execGsrun s') := by
  refine agreeOnLatch_unlessLatched h.sameLatch ?_
  rw [h.samplerCheck_eq]
  cases samplerCheck s with
  | some code => exact agreeOnLatch_failGsrun _ _ s s'
  | none => exact h.agree_sampleGrid

theorem agree_execGsmap (row col : BitVec 8) : AgreeOnLatch (execGsmap row col s) (execGsmap row col s') := by
  refine agreeOnLatch_unlessLatched h.sameLatch ?_
  rw [h.samplerCheck_eq, h.transform_eq, h.img_eq, h.gs_eq]
  cases samplerCheck s with
  | some code => exact agreeOnLatch_raiseFault _ _ s s'
  | none =>
    dsimp only
    split
    · exact agreeOnLatch_raiseFault _ _ s s'
    cases mapModule (transform s) s.img.w.toNat s.img.h.toNat col.toNat row.toNat with
    | none => exact agreeOnLatch_raiseFault _ _ _ _
    | some p => exact agreeOnLatch_respond (s := setMap s p.1 p.2) (s' := setMap s' p.1 p.2) h.sameLatch _ _

end SameControl

/-! ## The decoder -/

/-- Once the key equation is solved, the two failure tests look at its solution alone (43_rs_decoder.md R217, R218). -/
theorem agreeOnLatch_correctBlock {s s' : State} (h : SameLatch s s') (syn c : List Byte) (l t n : Nat) :
    AgreeOnLatch (correctBlock s syn c l t n) (correctBlock s' syn c l t n) := by
  unfold correctBlock
  split
  · exact agreeOnLatch_failRsdec _ _ s s'
  split
  · exact agreeOnLatch_failRsdec _ _ s s'
  · refine agreeOnLatch_endRsdec ?_
    obtain ⟨m, hm⟩ := storeCorrections_correctCells_frame s (corrections c syn l n)
    obtain ⟨m', hm'⟩ := storeCorrections_correctCells_frame s' (corrections c syn l n)
    rw [hm, hm']
    exact h

theorem sameLatch_storeLocator_storeSyndromes {s s' : State} (h : SameLatch s s') (syn c : List Byte) (l : Nat) :
    SameLatch (storeLocator (storeSyndromes s syn) c l) (storeLocator (storeSyndromes s' syn) c l) := by
  obtain ⟨m, hm⟩ := storeLocator_storeSyndromes_frame s syn c l
  obtain ⟨m', hm'⟩ := storeLocator_storeSyndromes_frame s' syn c l
  rw [hm, hm']
  exact h

/-- The syndromes decide how a block ends, and they are computed from CW alone (43_rs_decoder.md R210, R214). -/
theorem agreeOnLatch_decodeBlock {s s' : State} (h : SameLatch s s')
    (hcw : ∀ k, readCell s' .cw k = readCell s .cw k) (n e : Nat) :
    AgreeOnLatch (decodeBlock s n e) (decodeBlock s' n e) := by
  have hcodewords : codewords s' n = codewords s n := List.map_congr_left fun k _ => hcw k
  dsimp only [decodeBlock]
  rw [hcodewords]
  generalize syndromes (codewords s n) e = syn
  split
  · exact agreeOnLatch_endRsdec (sameLatch_storeLocator_storeSyndromes h syn [1] 0)
  · exact agreeOnLatch_correctBlock (sameLatch_storeLocator_storeSyndromes h syn _ _) syn _ _ _ _

theorem SameControl.agree_execRsdec {s s' : State} (h : SameControl s s')
    (hcw : ∀ k, readCell s' .cw k = readCell s .cw k) : AgreeOnLatch (execRsdec s) (execRsdec s') := by
  refine agreeOnLatch_unlessLatched h.sameLatch ?_
  rw [h.rsBadParameter_eq, h.rs_eq]
  split
  · exact agreeOnLatch_failRsdec _ _ s s'
  · exact agreeOnLatch_decodeBlock h.sameLatch hcw _ _

/-! ## Every command -/

/-- The latch after a command depends on the control state, for GFDIV, GFINV and GFLOG on the registers too, and for
RSDEC on CW too (60_exceptions.md R262). -/
theorem SameControl.agree_exec {s s' : State} (h : SameControl s s') {i : Instr}
    (hgpr : i.mnemonic ∈ ["GFDIV", "GFINV", "GFLOG"] → s'.gpr = s.gpr)
    (hcw : i = .rsdec → ∀ k, readCell s' .cw k = readCell s .cw k) : AgreeOnLatch (exec i s) (exec i s') := by
  have hl := h.sameLatch
  unfold exec
  cases i with
  | nop | gfrd => exact agreeOnLatch_unlessLatched hl (agreeOnLatch_respond hl _ _)
  | clrerr => exact agreeOnLatch_respond (s := clearLatch s) (s' := clearLatch s') ⟨rfl, rfl, rfl⟩ 0 0
  | setptr v =>
    exact agreeOnLatch_unlessLatched hl
      (agreeOnLatch_respond (s := { s with ptr := v }) (s' := { s' with ptr := v }) hl 0 0)
  | csrrd csr => exact h.agree_execCsrrd csr
  | csrwr csr imm16 => exact h.agree_execCsrwr csr imm16
  | ld sp => exact h.agree_execLd sp
  | st sp imm8 => exact h.agree_execSt sp imm8
  | gfli | gfmv | gfadd | gfmul | gfexp =>
    exact agreeOnLatch_unlessLatched hl (agreeOnLatch_writeAndRespond hl _ _ _)
  | gfdiv | gfinv | gflog =>
    refine agreeOnLatch_unlessLatched hl ?_
    simp only [readReg_congr (hgpr (by simp [Instr.mnemonic]))]
    exact agreeOnLatch_writeOrGfZero hl _ _ _
  | binrun => exact h.agree_execBinrun
  | gsrun => exact h.agree_execGsrun
  | gsmap row col => exact h.agree_execGsmap row col
  | rsdec => exact h.agree_execRsdec (hcw rfl)

/-- Settles O60: the nine commands end with a response, and for every command two runs agree on the latch. -/
theorem faultsDependOnNoPixel : Obligations.FaultsDependOnNoPixel := by
  unfold Obligations.FaultsDependOnNoPixel
  refine ⟨fun i s hs hi => exists_exec_of_neverFaults hs hi, fun i s s' t t' h hgpr hcw ht ht' => ?_⟩
  have hcontrol : SameControl s s' := h
  exact hcontrol.agree_exec hgpr hcw t t' ht ht'

end Sys2Proof.Machine
end

section
/-! PROOFS. Decoding and encoding (30_encoding.md R91, R92, R96): a command's fields are read back from its word, and a
legal word is put together again from its fields. -/

-- One declaration at a time: the stacks of parallel elaboration can exceed the memory that the check allows.
set_option Elab.async false

namespace Sys2Proof

open Laws.EncodeFitsTable (place_and or_and)

/-! ## One field in a word (30_encoding.md R91) -/

/-- A field is read back from where it was placed. -/
theorem extractLsb'_place_same {n lo : Nat} (v : BitVec n) (h : lo + n ≤ 32) :
    (place v lo).extractLsb' lo n = v := by
  ext i hi
  have hlt : lo + i < 32 := by omega
  simp [place, hlt, BitVec.getLsbD_eq_getElem hi]

/-- A field is not seen where another one was placed. -/
theorem extractLsb'_place_disjoint {n lo : Nat} (v : BitVec n) (lo' n' : Nat) (h : lo + n ≤ lo' ∨ lo' + n' ≤ lo) :
    (place v lo).extractLsb' lo' n' = 0 := by
  ext i hi
  simp only [place, BitVec.getElem_extractLsb', BitVec.getLsbD_shiftLeft, BitVec.getLsbD_setWidth]
  by_cases hlo : lo' + i < lo
  · simp [hlo]
  · simp [BitVec.getLsbD_of_ge v (lo' + i - lo) (by omega)]

/-- Placing a field of a word where it was is a mask of the word. -/
theorem place_extractLsb' (w : Word32) (lo n : Nat) :
    place (w.extractLsb' lo n) lo = w &&& (BitVec.allOnes n).setWidth 32 <<< lo := by
  ext i hi
  simp only [place, BitVec.getElem_and, BitVec.getElem_shiftLeft, BitVec.getElem_setWidth,
    BitVec.getLsbD_extractLsb', BitVec.getLsbD_allOnes]
  by_cases hlo : i < lo
  · simp [hlo]
  · simp [hlo, Nat.add_sub_cancel' (Nat.not_lt.1 hlo), BitVec.getLsbD_eq_getElem hi, Bool.and_comm]

theorem and_or_place_extractLsb' (w m : Word32) (lo n : Nat) :
    w &&& m ||| place (w.extractLsb' lo n) lo = w &&& (m ||| (BitVec.allOnes n).setWidth 32 <<< lo) := by
  rw [place_extractLsb', BitVec.and_or_distrib_left]

/-! ## The selectors (10_state.md R45) -/

theorem ofSelector_selector (sp : Space) : Space.ofSelector sp.selector = some sp := by
  cases sp <;> rfl

theorem selector_of_ofSelector {v : BitVec 4} {sp : Space} (h : Space.ofSelector v = some sp) : sp.selector = v := by
  revert v
  cases sp <;> decide

/-! ## Decoding the word of a command -/

/-- The decoder finds in the word of a well-formed command its opcode, zeros where its format marks 0, and its fields
where they were placed. -/
theorem decode_encode {i : Instr} (h : WellFormed i) : decode (encode i) = .ok i := by
  cases i with
  | nop | clrerr | binrun | gsrun | rsdec => rfl
  | csrrd | gfrd | gfmv | gfinv | gfexp | gflog | gfadd | gfmul | gfdiv =>
    simp (disch := decide) [decode, encode, fieldOpcode, checkZero, fieldCsr, fieldRd, fieldRa, fieldRb,
      BitVec.extractLsb'_or, extractLsb'_place_same, extractLsb'_place_disjoint, or_and, place_and]
  | csrwr | setptr | gfli | gsmap =>
    simp (disch := decide) [decode, encode, fieldOpcode, checkZero, fieldCsr, fieldRd, fieldImm8, fieldImm16,
      fieldImm24, fieldRow, fieldCol, BitVec.extractLsb'_or, extractLsb'_place_same, extractLsb'_place_disjoint, or_and,
      place_and]
  | ld sp =>
    simp (disch := decide) [decode, encode, fieldOpcode, decodeLd, fieldSpace, ofSelector_selector,
      BitVec.extractLsb'_or, extractLsb'_place_same, extractLsb'_place_disjoint, or_and, place_and]
  | st sp v =>
    simp (disch := decide) [decode, encode, fieldOpcode, decodeSt, fieldSpace, fieldImm8, ofSelector_selector,
      BitVec.extractLsb'_or, extractLsb'_place_same, extractLsb'_place_disjoint, or_and, place_and, h]

/-- Settles O2. -/
theorem decodeOfEncodeIsTheCommand : Obligations.DecodeOfEncodeIsTheCommand := by
  unfold Obligations.DecodeOfEncodeIsTheCommand
  exact fun _ => decode_encode

/-! ## A legal word from its fields: each format's mask and the places of its fields cover the word -/

section Formats
variable {w op : Word32}

theorem or_place_csr (h : w &&& 0xFF00FFFF = op) : op ||| place (fieldCsr w) 16 = w := by
  rw [← h, fieldCsr, and_or_place_extractLsb']
  exact BitVec.and_allOnes

theorem or_place_csr_imm16 (h : w &&& 0xFF000000 = op) :
    op ||| place (fieldCsr w) 16 ||| place (fieldImm16 w) 0 = w := by
  rw [← h, fieldCsr, fieldImm16, and_or_place_extractLsb', and_or_place_extractLsb']
  exact BitVec.and_allOnes

theorem or_place_imm24 (h : w &&& 0xFF000000 = op) : op ||| place (fieldImm24 w) 0 = w := by
  rw [← h, fieldImm24, and_or_place_extractLsb']
  exact BitVec.and_allOnes

theorem or_place_space (h : w &&& 0xFF0FFFFF = op) : op ||| place (fieldSpace w) 20 = w := by
  rw [← h, fieldSpace, and_or_place_extractLsb']
  exact BitVec.and_allOnes

theorem or_place_space_imm8 (h : w &&& 0xFF0FFF00 = op) :
    op ||| place (fieldSpace w) 20 ||| place (fieldImm8 w) 0 = w := by
  rw [← h, fieldSpace, fieldImm8, and_or_place_extractLsb', and_or_place_extractLsb']
  exact BitVec.and_allOnes

theorem or_place_rd_imm8 (h : w &&& 0xFF0FFF00 = op) :
    op ||| place (fieldRd w) 20 ||| place (fieldImm8 w) 0 = w :=
  or_place_space_imm8 h

theorem or_place_ra (h : w &&& 0xFFF0FFFF = op) : op ||| place (fieldRa w) 16 = w := by
  rw [← h, fieldRa, and_or_place_extractLsb']
  exact BitVec.and_allOnes

theorem or_place_rd_ra (h : w &&& 0xFF00FFFF = op) :
    op ||| place (fieldRd w) 20 ||| place (fieldRa w) 16 = w := by
  rw [← h, fieldRd, fieldRa, and_or_place_extractLsb', and_or_place_extractLsb']
  exact BitVec.and_allOnes

theorem or_place_rd_ra_rb (h : w &&& 0xFF000FFF = op) :
    op ||| place (fieldRd w) 20 ||| place (fieldRa w) 16 ||| place (fieldRb w) 12 = w := by
  rw [← h, fieldRd, fieldRa, fieldRb, and_or_place_extractLsb', and_or_place_extractLsb', and_or_place_extractLsb']
  exact BitVec.and_allOnes

theorem or_place_row_col (h : w &&& 0xFFFF0000 = op) :
    op ||| place (fieldRow w) 8 ||| place (fieldCol w) 0 = w := by
  rw [← h, fieldRow, fieldCol, and_or_place_extractLsb', and_or_place_extractLsb']
  exact BitVec.and_allOnes

/-- A format without fields. -/
theorem eq_of_and_full (h : w &&& 0xFFFFFFFF = op) : op = w := by
  rw [← h]
  exact BitVec.and_allOnes

end Formats

/-! ## Encoding the command of a legal word -/

/-- If decoding the word `w` answers a command, that command is well-formed and `w` is its word. -/
def AnswersCommandOf (w : Word32) (answer : Except DecodeError Instr) : Prop :=
  ∀ i, answer = .ok i → WellFormed i ∧ encode i = w

section Arms
variable {w : Word32} {row : TableRow}

theorem answersCommandOf_checkZero {i : Instr} {zero : Word32} (hrow : RowNamed i.mnemonic row)
    (hop : (fieldOpcode w).toNat = row.opcode.toNat) (hz : row.zeroBits = zero) (hwf : WellFormed i)
    (henc : w &&& row.mask = row.pattern → encode i = w) : AnswersCommandOf w (checkZero w zero i) := by
  intro j hj
  subst hz
  unfold checkZero at hj
  split at hj
  next hzero =>
    obtain rfl : i = j := by simpa using hj
    exact ⟨hwf, henc ((hrow.hasRow hop).fits_iff.2 hzero)⟩
  next => cases hj

theorem answersCommandOf_decodeLd (hop : (fieldOpcode w).toNat = 0x05) : AnswersCommandOf w (decodeLd w) := by
  intro i hi
  unfold decodeLd at hi
  split at hi
  next => cases hi
  next hzero =>
    have hrow : RowNamed "LD" ⟨"LD", 0xFF0FFFFF, 0x05000000⟩ := rfl
    have hfit := (hrow.hasRow (w := w) hop).fits_iff.2 (not_not.1 hzero)
    split at hi
    next sp hsp =>
      obtain rfl : .ld sp = i := by simpa using hi
      refine ⟨rfl, ?_⟩
      rw [encode, selector_of_ofSelector hsp]
      exact or_place_space hfit
    next => cases hi

theorem answersCommandOf_decodeSt (hop : (fieldOpcode w).toNat = 0x06) : AnswersCommandOf w (decodeSt w) := by
  intro i hi
  unfold decodeSt at hi
  split at hi
  next => cases hi
  next hzero =>
    have hrow : RowNamed "ST" ⟨"ST", 0xFF0FFF00, 0x06000000⟩ := rfl
    have hfit := (hrow.hasRow (w := w) hop).fits_iff.2 (not_not.1 hzero)
    split at hi
    next sp hsp =>
      split at hi
      next hwf =>
        obtain rfl : .st sp (fieldImm8 w) = i := by simpa using hi
        refine ⟨hwf, ?_⟩
        rw [encode, selector_of_ofSelector hsp]
        exact or_place_space_imm8 hfit
      next => cases hi
    next => cases hi

end Arms

theorem answersCommandOf_decode (w : Word32) : AnswersCommandOf w (decode w) := by
  unfold decode
  split
  case h_1 hop | h_2 hop | h_17 hop | h_18 hop | h_20 hop =>
    exact answersCommandOf_checkZero rfl hop rfl rfl eq_of_and_full
  case h_3 hop => exact answersCommandOf_checkZero rfl hop rfl rfl or_place_csr
  case h_4 hop => exact checkZero_zero w _ ▸ answersCommandOf_checkZero rfl hop rfl rfl or_place_csr_imm16
  case h_5 hop => exact checkZero_zero w _ ▸ answersCommandOf_checkZero rfl hop rfl rfl or_place_imm24
  case h_6 hop => exact answersCommandOf_decodeLd hop
  case h_7 hop => exact answersCommandOf_decodeSt hop
  case h_8 hop => exact answersCommandOf_checkZero rfl hop rfl rfl or_place_rd_imm8
  case h_10 hop => exact answersCommandOf_checkZero rfl hop rfl rfl or_place_ra
  case h_9 hop | h_14 hop | h_15 hop | h_16 hop =>
    exact answersCommandOf_checkZero rfl hop rfl rfl or_place_rd_ra
  case h_11 hop | h_12 hop | h_13 hop => exact answersCommandOf_checkZero rfl hop rfl rfl or_place_rd_ra_rb
  case h_19 hop => exact answersCommandOf_checkZero rfl hop rfl rfl or_place_row_col
  case h_21 => exact nofun

/-- Settles O3. -/
theorem legalWordIsTheWordOfItsCommand : Obligations.LegalWordIsTheWordOfItsCommand := by
  unfold Obligations.LegalWordIsTheWordOfItsCommand
  exact answersCommandOf_decode

/-- Settles O1: the ten words are literals, so the decoder is run on each. -/
theorem writtenWordsDecode : Obligations.WrittenWordsDecode := by
  unfold Obligations.WrittenWordsDecode
  decide

end Sys2Proof
end

section
/-! PROOFS. The key-equation solver (43_rs_decoder.md R216). Lists of bytes become polynomials over the ring of residues
modulo 0x11D; there a recurrence that generates the syndromes is a polynomial whose product with theirs has zero
coefficients, and Massey's argument on two such products bounds the length of every recurrence from below. -/

-- One declaration at a time: the stacks of parallel elaboration can exceed the memory that the check allows.
set_option Elab.async false

namespace Sys2Proof.Machine

open Polynomial

/-! ## The residues are a field of characteristic 2 -/

/-- Every residue is that of a byte: sums and doublings reach all polynomials. -/
theorem residue_surjective : Function.Surjective residue := by
  intro x
  induction x using AdjoinRoot.induction_on with
  | ih p =>
    induction p using Polynomial.induction_on' with
    | add p q hp hq =>
      obtain ⟨a, ha⟩ := hp
      obtain ⟨b, hb⟩ := hq
      exact ⟨a ^^^ b, by rw [residue_xor, ha, hb, map_add]⟩
    | monomial n a =>
      have hbit : a = 0 ∨ a = 1 := by revert a; decide
      rcases hbit with rfl | rfl
      · exact ⟨0, by simp⟩
      · refine ⟨alphaPow n, ?_⟩
        rw [residue_alphaPow, monomial_one_right_eq_X_pow, map_pow]
        rfl

theorem isDomain_residues : IsDomain (AdjoinRoot modulus) := by
  have : Nontrivial (AdjoinRoot modulus) := AdjoinRoot.nontrivial _ (by rw [degree_modulus]; decide)
  have : NoZeroDivisors (AdjoinRoot modulus) := by
    refine ⟨fun {x y} h => or_iff_not_imp_left.2 fun hx => ?_⟩
    obtain ⟨a, rfl⟩ := residue_surjective x
    have ha : a ≠ 0 := fun h0 => hx (h0 ▸ residue_zero)
    exact (isUnit_residue ha).mul_right_eq_zero.1 h
  exact NoZeroDivisors.to_isDomain _

theorem residue_add_self (a : Byte) : residue a + residue a = 0 := by
  rw [← residue_xor, BitVec.xor_self]
  exact residue_zero

theorem add_self_residues (x : AdjoinRoot modulus) : x + x = 0 := by
  obtain ⟨a, rfl⟩ := residue_surjective x
  exact residue_add_self a

theorem residue_eq_zero_iff (a : Byte) : residue a = 0 ↔ a = 0 :=
  ⟨fun h => residue_injective (h.trans residue_zero.symm), fun h => h ▸ residue_zero⟩

theorem gfMul_gfDivFree (a : Byte) {b : Byte} (hb : b ≠ 0) : gfMul (gfDivFree a b) b = a := by
  obtain ⟨q, hq, hmul⟩ := exists_gfDiv a hb
  rw [gfDivFree, hq]
  exact hmul

/-! ## Lists of bytes as polynomials (00_scope.md R15) -/

/-- The polynomial with the residues of the bytes of a list as coefficients, lowest degree first. -/
noncomputable def listPoly (p : List Byte) : (AdjoinRoot modulus)[X] :=
  ∑ i ∈ Finset.range p.length, C (residue (coef p i)) * X ^ i

theorem coef_of_length_le {p : List Byte} {i : Nat} (h : p.length ≤ i) : coef p i = 0 := by
  rw [coef, List.getD_eq_getElem?_getD, List.getElem?_eq_none h]
  rfl

@[simp] theorem coeff_listPoly (p : List Byte) (i : Nat) : (listPoly p).coeff i = residue (coef p i) := by
  simp only [listPoly, finsetSum_coeff, coeff_C_mul_X_pow, Finset.sum_ite_eq, Finset.mem_range]
  split
  next => rfl
  next h => rw [coef_of_length_le (Nat.not_lt.1 h)]; exact residue_zero.symm

/-! ## Recurrences that generate a sequence -/

section Recurrences
variable {K : Type*} [CommRing K] {A B S P Q : K[X]} {l l' r : Nat}

/-- The recurrence of length `l` with coefficients `P` generates the first `r` coefficients of `S` from the first
`l` on. -/
structure Generates (S P : K[X]) (l r : Nat) : Prop where
  coeff_zero : P.coeff 0 = 1
  natDegree_le : P.natDegree ≤ l
  coeff_mul : ∀ j, l ≤ j → j < r → (S * P).coeff j = 0

theorem Generates.mono (h : Generates S P l r) (hr : l' ≤ r) : Generates S P l l' :=
  ⟨h.coeff_zero, h.natDegree_le, fun j hl hj => h.coeff_mul j hl (hj.trans_le hr)⟩

theorem Generates.succ (h : Generates S P l r) (hr : (S * P).coeff r = 0) : Generates S P l (r + 1) := by
  refine ⟨h.coeff_zero, h.natDegree_le, fun j hl hj => ?_⟩
  rcases Nat.lt_succ_iff_lt_or_eq.1 hj with hj | rfl
  · exact h.coeff_mul j hl hj
  · exact hr

/-- A coefficient of a product is that of the first factor where this one has `l` zeros just below. -/
theorem coeff_mul_of_zeros_below (hB0 : B.coeff 0 = 1) (hB : B.natDegree ≤ l)
    (hA : ∀ j, r ≤ j + l → j < r → A.coeff j = 0) : (A * B).coeff r = A.coeff r := by
  rw [coeff_mul, Finset.sum_eq_single (r, 0), hB0, mul_one]
  · rintro ⟨j, k⟩ hjk hne
    obtain rfl : j + k = r := Finset.HasAntidiagonal.mem_antidiagonal.1 hjk
    rcases Nat.lt_or_ge l k with hk | hk
    · rw [coeff_eq_zero_of_natDegree_lt (hB.trans_lt hk), mul_zero]
    · have hpos : k ≠ 0 := by rintro rfl; exact hne rfl
      rw [hA j (by omega) (by omega), zero_mul]
  · exact fun h => absurd (Finset.HasAntidiagonal.mem_antidiagonal.2 (Nat.add_zero r)) h

/-- Massey's bound: where a recurrence fails to generate the next coefficient, one that does is longer than the rest. -/
theorem Generates.lt_add_of_coeff_ne_zero (hP : Generates S P l r) (hne : (S * P).coeff r ≠ 0)
    (hQ : Generates S Q l' (r + 1)) : r < l + l' := by
  by_contra hle
  refine hne ?_
  calc (S * P).coeff r = (S * P * Q).coeff r :=
        (coeff_mul_of_zeros_below hQ.coeff_zero hQ.natDegree_le fun j _ hj => hP.coeff_mul j (by omega) hj).symm
    _ = (S * Q * P).coeff r := by rw [mul_right_comm]
    _ = (S * Q).coeff r :=
        coeff_mul_of_zeros_below hP.coeff_zero hP.natDegree_le fun j _ hj => hQ.coeff_mul j (by omega) (by omega)
    _ = 0 := hQ.coeff_mul r (by omega) (by omega)

end Recurrences

/-! ## What the solver's operations are on polynomials -/

/-- A sum that the model accumulates with `^` from a start value. -/
theorem residue_foldl_xor (f : Nat → Byte) (a : Byte) (l : List Nat) :
    residue (l.foldl (fun d i => d ^^^ f i) a) = residue a + (l.map fun i => residue (f i)).sum := by
  induction l generalizing a with
  | nil => simp
  | cons i l ih => rw [List.foldl_cons, ih, residue_xor, List.map_cons, List.sum_cons, add_assoc]

theorem residue_foldl_xor_range (f : Nat → Byte) (a : Byte) (n : Nat) :
    residue ((List.range n).foldl (fun d i => d ^^^ f i) a) = residue a + ∑ i ∈ Finset.range n, residue (f i) :=
  residue_foldl_xor f a (List.range n)

/-- A coefficient of the product with a recurrence of length `l`, as the solver sums it up. -/
theorem coeff_listPoly_mul {c syn : List Byte} {l r : Nat} (h0 : coef c 0 = 1) (hdeg : (listPoly c).natDegree ≤ l)
    (hl : l ≤ r) :
    (listPoly syn * listPoly c).coeff r =
      residue (coef syn r) +
        ∑ i ∈ Finset.range l, residue (gfMul (coef c (i + 1)) (coef syn (r - (i + 1)))) := by
  have hvanish : ∀ i ∈ Finset.range (r + 1), i ∉ Finset.range (l + 1) →
      (listPoly c).coeff i * (listPoly syn).coeff (r - i) = 0 := by
    intro i _ hi
    rw [Finset.mem_range, Nat.not_lt] at hi
    rw [coeff_eq_zero_of_natDegree_lt (by omega), zero_mul]
  have hsub : Finset.range (l + 1) ⊆ Finset.range (r + 1) := Finset.range_mono (by omega)
  rw [mul_comm, coeff_mul, Finset.Nat.sum_antidiagonal_eq_sum_range_succ_mk, ← Finset.sum_subset hsub hvanish,
    Finset.sum_range_succ']
  simp [h0, add_comm]

theorem residue_discrepancy {c syn : List Byte} {l r : Nat} (h0 : coef c 0 = 1)
    (hdeg : (listPoly c).natDegree ≤ l) (hl : l ≤ r) :
    residue (discrepancy c syn l r) = (listPoly syn * listPoly c).coeff r := by
  rw [coeff_listPoly_mul h0 hdeg hl, discrepancy, residue_foldl_xor_range]

/-- The correction of C, where the arrays are long enough for its degrees. -/
theorem listPoly_bmUpdate {e m : Nat} {c b : List Byte} (q : Byte) (hc : (listPoly c).natDegree ≤ e)
    (hb : (listPoly b).natDegree + m ≤ e) :
    listPoly (bmUpdate e c b m q) = listPoly c + C (residue q) * (listPoly b * X ^ m) := by
  ext j
  rw [coeff_listPoly, bmUpdate, coef_map_range, coeff_add, coeff_C_mul, coeff_mul_X_pow', coeff_listPoly]
  rcases Nat.lt_or_ge j (e + 1) with hj | hj
  · rw [if_pos hj]
    split <;> simp [residue_xor]
  · have hcj : residue (coef c j) = 0 := by
      rw [← coeff_listPoly]
      exact coeff_eq_zero_of_natDegree_lt (by omega)
    rw [if_neg (by omega), hcj, if_pos (by omega), coeff_eq_zero_of_natDegree_lt (by omega)]
    simp

/-! ## The invariant of the solver -/

/-- What holds after the steps 0 .. r − 1: `C` is a shortest recurrence that generates S_0 .. S_(r−1), and `B`,
shifted by `m`, has the discrepancy `d` where it failed and zeros before; `B` is still the start value while no
length change has been made, and then `m` exceeds `r`. -/
structure SolverInv (syn : List Byte) (st : BmState) (r : Nat) : Prop where
  generates : Generates (listPoly syn) (listPoly st.c) st.l r
  shortest : ∀ Q l', Generates (listPoly syn) Q l' r → st.l ≤ l'
  length_le : st.l ≤ r
  d_ne_zero : st.d ≠ 0
  m_pos : 1 ≤ st.m
  m_le : st.m ≤ r + 1
  natDegree_b : (listPoly st.b).natDegree + st.m + st.l ≤ r + 1
  coeff_b : ∀ j, r + 1 ≤ j + st.m + st.l → j + st.m < r → (listPoly syn * listPoly st.b).coeff j = 0
  coeff_b_failed : ∀ j, j + st.m = r → (listPoly syn * listPoly st.b).coeff j = residue st.d
  length_start : r < st.m → st.l = 0

/-- C starts as the polynomial 1. -/
theorem listPoly_bmInit_c (e : Nat) : listPoly (bmInit e).c = 1 := by
  ext i
  rw [coeff_listPoly, coeff_one, bmInit]
  cases i with
  | zero => exact residue_one
  | succ i =>
    have hzero : coef (1 :: List.replicate e 0) (i + 1) = 0 := by
      rw [coef, List.getD_cons_succ, List.getD_eq_getElem?_getD, List.getElem?_getD_replicate_default_eq]
    rw [hzero]
    exact residue_zero

/-- B starts as C does. -/
theorem listPoly_bmInit_b (e : Nat) : listPoly (bmInit e).b = 1 := listPoly_bmInit_c e

theorem solverInv_bmInit (syn : List Byte) (e : Nat) : SolverInv syn (bmInit e) 0 where
  generates := by
    rw [listPoly_bmInit_c]
    exact ⟨coeff_one_zero, natDegree_one.le, nofun⟩
  shortest := fun _ _ _ => Nat.zero_le _
  length_le := le_rfl
  d_ne_zero := (by decide : (1 : Byte) ≠ 0)
  m_pos := le_rfl
  m_le := le_rfl
  natDegree_b := by rw [listPoly_bmInit_b, natDegree_one]; rfl
  coeff_b := nofun
  coeff_b_failed := fun j hj => by simp [bmInit] at hj
  length_start := fun _ => rfl

namespace SolverInv
variable {syn : List Byte} {st : BmState} {r : Nat} (h : SolverInv syn st r)
include h

theorem coef_c_zero : coef st.c 0 = 1 :=
  residue_injective (by rw [← coeff_listPoly, h.generates.coeff_zero]; exact residue_one.symm)

theorem coef_c_eq_zero {i : Nat} (hi : st.l < i) : coef st.c i = 0 := by
  rw [← residue_eq_zero_iff, ← coeff_listPoly]
  exact coeff_eq_zero_of_natDegree_lt (h.generates.natDegree_le.trans_lt hi)

theorem residue_discrepancy_eq :
    residue (discrepancy st.c syn st.l r) = (listPoly syn * listPoly st.c).coeff r :=
  residue_discrepancy h.coef_c_zero h.generates.natDegree_le h.length_le

/-- Case A: the recurrence generates one coefficient more. -/
theorem keep (hd : discrepancy st.c syn st.l r = 0) : SolverInv syn { st with m := st.m + 1 } (r + 1) where
  generates := h.generates.succ (by rw [← h.residue_discrepancy_eq, hd]; exact residue_zero)
  shortest := fun Q l' hQ => h.shortest Q l' (hQ.mono r.le_succ)
  length_le := h.length_le.trans r.le_succ
  d_ne_zero := h.d_ne_zero
  m_pos := h.m_pos.trans (Nat.le_succ _)
  m_le := Nat.succ_le_succ h.m_le
  natDegree_b := by have := h.natDegree_b; dsimp only; omega
  coeff_b := fun j hlow hj => h.coeff_b j (by dsimp only at hlow; omega) (by dsimp only at hj; omega)
  coeff_b_failed := fun j hj => h.coeff_b_failed j (by dsimp only at hj; omega)
  length_start := fun hr => h.length_start (by dsimp only at hr; omega)

/-- The corrected `C` generates one coefficient more, with the length that Massey's bound asks for. -/
theorem generates_bmUpdate {e l' : Nat} {q : Byte} (hq : gfMul q st.d = discrepancy st.c syn st.l r)
    (hl : st.l ≤ l') (hr : r + 1 ≤ l' + st.l) (he : l' ≤ e) :
    Generates (listPoly syn) (listPoly (bmUpdate e st.c st.b st.m q)) l' (r + 1) := by
  have hdegC := h.generates.natDegree_le
  have hdegB := h.natDegree_b
  have hm := h.m_pos
  rw [listPoly_bmUpdate q (by omega) (by omega)]
  refine ⟨?_, ?_, fun j hj hjr => ?_⟩
  · rw [coeff_add, h.generates.coeff_zero, coeff_C_mul, coeff_mul_X_pow', if_neg (by omega), mul_zero, add_zero]
  · refine natDegree_add_le_of_degree_le (hdegC.trans hl) ((natDegree_C_mul_le _ _).trans ?_)
    exact (natDegree_mul_le_of_le le_rfl (natDegree_X_pow_le _)).trans (by omega)
  · have hcoeff : (listPoly syn * (listPoly st.c + C (residue q) * (listPoly st.b * X ^ st.m))).coeff j =
        (listPoly syn * listPoly st.c).coeff j +
          residue q * if st.m ≤ j then (listPoly syn * listPoly st.b).coeff (j - st.m) else 0 := by
      rw [mul_add, mul_left_comm, ← mul_assoc (listPoly syn), coeff_add, coeff_C_mul, coeff_mul_X_pow']
    rw [hcoeff]
    rcases Nat.lt_succ_iff_lt_or_eq.1 hjr with hjr | rfl
    · rw [h.generates.coeff_mul j (hl.trans hj) hjr]
      split
      · rw [h.coeff_b (j - st.m) (by omega) (by omega)]
        simp
      · simp
    · have hmj : st.m ≤ j := by
        by_contra hmj
        have := h.length_start (by omega)
        omega
      rw [if_pos hmj, h.coeff_b_failed (j - st.m) (by omega), ← residue_gfMul, hq, h.residue_discrepancy_eq]
      exact add_self_residues _

/-- Case C: the length stays, since it is large enough already. -/
theorem update {e : Nat} {q : Byte} (hq : gfMul q st.d = discrepancy st.c syn st.l r) (hl : r < 2 * st.l)
    (he : r < e) :
    SolverInv syn { st with c := bmUpdate e st.c st.b st.m q, m := st.m + 1 } (r + 1) where
  generates := h.generates_bmUpdate (l' := st.l) hq le_rfl (by omega) (by have := h.length_le; omega)
  shortest := fun Q l' hQ => h.shortest Q l' (hQ.mono r.le_succ)
  length_le := h.length_le.trans r.le_succ
  d_ne_zero := h.d_ne_zero
  m_pos := h.m_pos.trans (Nat.le_succ _)
  m_le := Nat.succ_le_succ h.m_le
  natDegree_b := by have := h.natDegree_b; dsimp only; omega
  coeff_b := fun j hlow hj => h.coeff_b j (by dsimp only at hlow; omega) (by dsimp only at hj; omega)
  coeff_b_failed := fun j hj => h.coeff_b_failed j (by dsimp only at hj; omega)
  length_start := fun hr => h.length_start (by dsimp only at hr; omega)

/-- Case B: the length grows to what Massey's bound asks for, and the old `C` becomes `B`. -/
theorem grow {e : Nat} {q : Byte} (hd : discrepancy st.c syn st.l r ≠ 0)
    (hq : gfMul q st.d = discrepancy st.c syn st.l r) (hl : 2 * st.l ≤ r) (he : r < e) :
    SolverInv syn
      ⟨bmUpdate e st.c st.b st.m q, st.c, r + 1 - st.l, 1, discrepancy st.c syn st.l r⟩ (r + 1) where
  generates := h.generates_bmUpdate (l' := r + 1 - st.l) hq (by omega) (by omega) (by omega)
  shortest := fun Q l' hQ => by
    have hne : (listPoly syn * listPoly st.c).coeff r ≠ 0 := by
      rwa [← h.residue_discrepancy_eq, ne_eq, residue_eq_zero_iff]
    have := h.generates.lt_add_of_coeff_ne_zero hne hQ
    dsimp only
    omega
  length_le := Nat.sub_le _ _
  d_ne_zero := hd
  m_pos := le_rfl
  m_le := by dsimp only; omega
  natDegree_b := by have := h.generates.natDegree_le; dsimp only; omega
  coeff_b := fun j hlow hj =>
    h.generates.coeff_mul j (by dsimp only at hlow; omega) (by dsimp only at hj; omega)
  coeff_b_failed := fun j hj => by
    obtain rfl : j = r := Nat.succ_injective hj
    exact h.residue_discrepancy_eq.symm
  length_start := fun hr => absurd hr (by dsimp only; omega)

theorem bmStep {e : Nat} (he : r < e) : SolverInv syn (bmStep e syn st r) (r + 1) := by
  have hq := gfMul_gfDivFree (discrepancy st.c syn st.l r) h.d_ne_zero
  simp only [Machine.bmStep]
  split
  next hd => exact h.keep hd
  next hd =>
    split
    next hl => exact h.grow hd hq hl he
    next hl => exact h.update hq (Nat.not_le.1 hl) he

end SolverInv

theorem solverInv_foldl (syn : List Byte) {e r : Nat} (hr : r ≤ e) :
    SolverInv syn ((List.range r).foldl (bmStep e syn) (bmInit e)) r := by
  induction r with
  | zero => exact solverInv_bmInit syn e
  | succ r ih =>
    rw [List.range_succ, List.foldl_append]
    exact (ih (Nat.le_of_succ_le hr)).bmStep hr

theorem solverInv_berlekampMassey (syn : List Byte) (e : Nat) : SolverInv syn (berlekampMassey syn e) e :=
  solverInv_foldl syn le_rfl

/-- Settles O51: the invariant of the solver after all E steps. -/
theorem berlekampMasseyGeneratesTheSyndromes : Obligations.BerlekampMasseyGeneratesTheSyndromes := by
  unfold Obligations.BerlekampMasseyGeneratesTheSyndromes
  intro syn e
  have h := solverInv_berlekampMassey syn e
  have hdeg := h.generates.natDegree_le
  refine ⟨h.coef_c_zero, fun i => h.coef_c_eq_zero, h.length_le, h.d_ne_zero, h.m_pos, h.m_le, fun r hl hr => ?_⟩
  have hzero := h.generates.coeff_mul r hl hr
  rw [coeff_listPoly_mul h.coef_c_zero hdeg hl, ← residue_gfSum_map_range, ← residue_xor, residue_eq_zero_iff] at hzero
  exact BitVec.xor_eq_zero_iff.1 hzero

end Sys2Proof.Machine
end

section
/-! PROOFS. Error locators over any commutative ring and over any integral domain (43_rs_decoder.md R212, R218 to R220):
power sums of locators, a polynomial that vanishes at as many inverse locators as its length, the value of its
derivative there, and that Forney's formula gives the weights whose power sums are the syndromes. -/

-- One declaration at a time: the stacks of parallel elaboration can exceed the memory that the check allows.
set_option Elab.async false

namespace Sys2Proof.Machine

open Polynomial

/-- The locators `loc i` of the positions in `P` differ, and `inv i` is the inverse of `loc i`. -/
structure Locators {K : Type*} [CommRing K] (P : Finset Nat) (loc inv : Nat → K) : Prop where
  mul_inv : ∀ i ∈ P, loc i * inv i = 1
  injOn : Set.InjOn loc P

/-- The quotient of a polynomial that vanishes at `a` by `1 − a⁻¹x`. -/
noncomputable def cofactor {K : Type*} [CommRing K] (L : K[X]) (a : K) : K[X] := C (-a) * (L /ₘ (X - C a))

/-- The polynomial whose first `e` coefficients are the power sums of the locators with the weights `w`. -/
noncomputable def powerSums {K : Type*} [CommRing K] (P : Finset Nat) (loc w : Nat → K) (e : Nat) : K[X] :=
  ∑ i ∈ P, C (w i) * ∑ j ∈ Finset.range e, (C (loc i) * X) ^ j

theorem coeff_powerSums {K : Type*} [CommRing K] {P : Finset Nat} {loc w : Nat → K} {e j : Nat} (hj : j < e) :
    (powerSums P loc w e).coeff j = ∑ i ∈ P, w i * loc i ^ j := by
  simp only [powerSums, finsetSum_coeff, coeff_C_mul, mul_pow, ← C_pow, coeff_X_pow, mul_ite, mul_one, mul_zero,
    Finset.sum_ite_eq, Finset.mem_range, if_pos hj]

theorem coeff_cofactor_eq_zero {K : Type*} [CommRing K] [Nontrivial K] {L : K[X]} {n k : Nat} (hpos : 0 < n)
    (hdeg : L.natDegree ≤ n) (a : K) (hk : n ≤ k) : (cofactor L a).coeff k = 0 := by
  have hdiv := natDegree_divByMonic L (monic_X_sub_C a)
  rw [natDegree_X_sub_C] at hdiv
  exact coeff_eq_zero_of_natDegree_lt ((natDegree_C_mul_le _ _).trans_lt (by omega))

namespace Locators

/-! ## Over a commutative ring -/

section Ring
variable {K : Type*} [CommRing K] {P : Finset Nat} {loc inv : Nat → K} (hloc : Locators P loc inv)
include hloc

theorem inv_injOn : Set.InjOn inv P := by
  intro i hi j hj hij
  refine hloc.injOn hi hj ?_
  calc loc i = loc i * (loc j * inv j) := by rw [hloc.mul_inv j hj, mul_one]
    _ = loc j * (loc i * inv i) := by rw [← hij, mul_left_comm]
    _ = loc j := by rw [hloc.mul_inv i hi, mul_one]

/-- The product of a sequence of power sums with a polynomial, in the coefficients from the polynomial's degree on. -/
theorem coeff_mul_of_power_sums {S L : K[X]} {w : Nat → K} {r : Nat}
    (hS : ∀ j ≤ r, S.coeff j = ∑ i ∈ P, w i * loc i ^ j) (hL : L.natDegree ≤ r) :
    (S * L).coeff r = ∑ i ∈ P, w i * L.eval (inv i) * loc i ^ r := by
  have hpow : ∀ i ∈ P, ∀ k ≤ r, loc i ^ (r - k) = loc i ^ r * inv i ^ k := by
    intro i hi k hk
    rw [← Nat.sub_add_cancel hk, pow_add, mul_assoc, ← mul_pow, hloc.mul_inv i hi, one_pow, mul_one,
      Nat.add_sub_cancel]
  have hterm : ∀ k ∈ Finset.range (r + 1),
      L.coeff k * S.coeff (r - k) = ∑ i ∈ P, w i * (L.coeff k * inv i ^ k) * loc i ^ r := by
    intro k hk
    rw [hS _ (Nat.sub_le r k), Finset.mul_sum]
    refine Finset.sum_congr rfl fun i hi => ?_
    rw [hpow i hi k (Nat.lt_succ_iff.1 (Finset.mem_range.1 hk))]
    ring
  calc (S * L).coeff r = ∑ k ∈ Finset.range (r + 1), L.coeff k * S.coeff (r - k) := by
        rw [mul_comm, coeff_mul, Finset.Nat.sum_antidiagonal_eq_sum_range_succ_mk]
    _ = ∑ i ∈ P, ∑ k ∈ Finset.range (r + 1), w i * (L.coeff k * inv i ^ k) * loc i ^ r := by
        rw [Finset.sum_congr rfl hterm, Finset.sum_comm]
    _ = ∑ i ∈ P, w i * L.eval (inv i) * loc i ^ r := by
        refine Finset.sum_congr rfl fun i _ => ?_
        rw [eval_eq_sum_range' (Nat.lt_succ_of_le hL), Finset.mul_sum, Finset.sum_mul]

section Factor
variable {L : K[X]} {i : Nat} (hi : i ∈ P) (hroot : L.eval (inv i) = 0)
include hi hroot

theorem mul_cofactor : (1 - C (loc i) * X) * cofactor L (inv i) = L := by
  have hunit : C (loc i) * C (inv i) = 1 := by rw [← C_mul, hloc.mul_inv i hi, C_1]
  calc (1 - C (loc i) * X) * cofactor L (inv i) = (X - C (inv i)) * (L /ₘ (X - C (inv i))) := by
        rw [cofactor, C_neg]
        linear_combination (X * (L /ₘ (X - C (inv i)))) * hunit
    _ = L := mul_divByMonic_eq_iff_isRoot.2 hroot

/-- The derivative at a root (43_rs_decoder.md R220). -/
theorem eval_derivative : L.derivative.eval (inv i) = -(loc i * (cofactor L (inv i)).eval (inv i)) := by
  have hmul := hloc.mul_cofactor hi hroot
  generalize cofactor L (inv i) = Q at hmul ⊢
  rw [← hmul]
  simp [hloc.mul_inv i hi]

/-- The power sums of one locator are a geometric series: its factor cancels below `x^e`. -/
theorem coeff_geom_mul {e j : Nat} (hj : j < e) :
    ((∑ k ∈ Finset.range e, (C (loc i) * X) ^ k) * L).coeff j = (cofactor L (inv i)).coeff j := by
  have hgeom : (∑ k ∈ Finset.range e, (C (loc i) * X) ^ k) * L =
      cofactor L (inv i) - C (loc i ^ e) * cofactor L (inv i) * X ^ e := by
    calc (∑ k ∈ Finset.range e, (C (loc i) * X) ^ k) * L
        = (1 - C (loc i) * X) * (∑ k ∈ Finset.range e, (C (loc i) * X) ^ k) * cofactor L (inv i) := by
          conv_lhs => rw [← hloc.mul_cofactor hi hroot]
          ring
      _ = cofactor L (inv i) - C (loc i ^ e) * cofactor L (inv i) * X ^ e := by
          rw [mul_neg_geom_sum, mul_pow, ← C_pow]
          ring
  rw [hgeom, coeff_sub, coeff_mul_X_pow', if_neg (Nat.not_le.2 hj), sub_zero]

end Factor

theorem coeff_powerSums_mul {L : K[X]} (hroots : ∀ i ∈ P, L.eval (inv i) = 0) (w : Nat → K) {e j : Nat} (hj : j < e) :
    (powerSums P loc w e * L).coeff j = (∑ i ∈ P, C (w i) * cofactor L (inv i)).coeff j := by
  rw [powerSums, Finset.sum_mul, finsetSum_coeff, finsetSum_coeff]
  refine Finset.sum_congr rfl fun i hi => ?_
  rw [mul_assoc, coeff_C_mul, coeff_C_mul, hloc.coeff_geom_mul hi (hroots i hi) hj]

end Ring


/-! ## Over an integral domain -/

section Domain
variable {K : Type*} [CommRing K] [IsDomain K] {P : Finset Nat} {loc inv : Nat → K} (hloc : Locators P loc inv)
include hloc

theorem loc_ne_zero {i : Nat} (hi : i ∈ P) : loc i ≠ 0 :=
  left_ne_zero_of_mul_eq_one (hloc.mul_inv i hi)

/-- As many power sums as positions vanish only if all weights are zero (Vandermonde). -/
theorem eq_zero_of_power_sums {w : Nat → K} (h : ∀ j < P.card, ∑ i ∈ P, w i * loc i ^ j = 0) :
    ∀ i ∈ P, w i = 0 := by
  have hinj : Function.Injective fun k : Fin P.card => loc (P.equivFin.symm k) := fun a b hab =>
    P.equivFin.symm.injective (Subtype.ext (hloc.injOn (P.equivFin.symm a).2 (P.equivFin.symm b).2 hab))
  have hzero := Matrix.eq_zero_of_forall_pow_sum_mul_pow_eq_zero (v := fun k => w (P.equivFin.symm k)) hinj
    fun j => by
      rw [P.equivFin.symm.sum_comp (fun i => w i * loc i ^ (j : Nat)),
        Finset.sum_coe_sort P fun i => w i * loc i ^ (j : Nat)]
      exact h j j.2
  intro i hi
  simpa using congrFun hzero (P.equivFin ⟨i, hi⟩)

/-- A polynomial with fewer coefficients than positions that vanishes at every inverse locator is zero. -/
theorem eq_zero_of_roots {p : K[X]} (hdeg : ∀ k, P.card ≤ k → p.coeff k = 0) (hroots : ∀ i ∈ P, p.eval (inv i) = 0) :
    p = 0 :=
  eq_zero_of_degree_lt_of_eval_index_eq_zero _ hloc.inv_injOn ((degree_lt_iff_coeff_zero _ _).2 hdeg) hroots

theorem eval_cofactor_other {L : K[X]} {i j : Nat} (hi : i ∈ P) (hroot : L.eval (inv i) = 0) (hj : j ∈ P)
    (hrootj : L.eval (inv j) = 0) (hne : j ≠ i) : (cofactor L (inv i)).eval (inv j) = 0 := by
  have hfactor : 1 - loc i * inv j ≠ 0 := by
    intro h
    have hinv : loc i * inv j = loc i * inv i := (sub_eq_zero.1 h).symm.trans (hloc.mul_inv i hi).symm
    exact hne (hloc.inv_injOn hj hi (mul_left_cancel₀ (hloc.loc_ne_zero hi) hinv))
  have hprod := congrArg (eval (inv j)) (hloc.mul_cofactor hi hroot)
  rw [hrootj, eval_mul] at hprod
  simpa [hfactor] using hprod

section Complete
variable {L : K[X]} (hdeg : L.natDegree ≤ P.card) (hroots : ∀ i ∈ P, L.eval (inv i) = 0)
include hdeg hroots

/-- A polynomial has no more roots than its degree, so where it has as many, none is a double root. -/
theorem eval_cofactor_ne_zero (h0 : L.coeff 0 = 1) {i : Nat} (hi : i ∈ P) :
    (cofactor L (inv i)).eval (inv i) ≠ 0 := by
  intro hzero
  have hall : ∀ j ∈ P, (cofactor L (inv i)).eval (inv j) = 0 := by
    intro j hj
    by_cases hji : j = i
    · rw [hji, hzero]
    · exact hloc.eval_cofactor_other hi (hroots i hi) hj (hroots j hj) hji
  have hcof := hloc.eq_zero_of_roots (fun k => coeff_cofactor_eq_zero (Finset.card_pos.2 ⟨i, hi⟩) hdeg _) hall
  have hL := hloc.mul_cofactor hi (hroots i hi)
  rw [hcof, mul_zero] at hL
  rw [← hL, coeff_zero] at h0
  exact zero_ne_one h0

theorem eval_derivative_ne_zero (h0 : L.coeff 0 = 1) {i : Nat} (hi : i ∈ P) : L.derivative.eval (inv i) ≠ 0 := by
  rw [hloc.eval_derivative hi (hroots i hi)]
  exact neg_ne_zero.2 (mul_ne_zero (hloc.loc_ne_zero hi) (hloc.eval_cofactor_ne_zero hdeg hroots h0 hi))

end Complete

/-- Forney's formula (43_rs_decoder.md R219, R220): where `L` generates `S` and has as many roots as its length, and
`Om` is the part of `S · L` below this length, the weights that `Om` and `L` determine at the roots have the
coefficients of `S` as power sums. -/
theorem coeff_eq_power_sums {S L Om : K[X]} {w : Nat → K} {e : Nat} (hgen : Generates S L P.card e)
    (hroots : ∀ i ∈ P, L.eval (inv i) = 0) (hdegOm : ∀ k, P.card ≤ k → Om.coeff k = 0)
    (hOm : ∀ k < P.card, Om.coeff k = (S * L).coeff k)
    (hw : ∀ i ∈ P, w i * (cofactor L (inv i)).eval (inv i) = Om.eval (inv i)) :
    ∀ j < e, S.coeff j = ∑ i ∈ P, w i * loc i ^ j := by
  have hfractions : Om = ∑ i ∈ P, C (w i) * cofactor L (inv i) := by
    refine sub_eq_zero.1 (hloc.eq_zero_of_roots (fun k hk => ?_) fun j hj => ?_)
    · rw [coeff_sub, hdegOm k hk, finsetSum_coeff, Finset.sum_eq_zero, sub_zero]
      intro i hi
      rw [coeff_C_mul, coeff_cofactor_eq_zero (Finset.card_pos.2 ⟨i, hi⟩) hgen.natDegree_le _ hk, mul_zero]
    · rw [eval_sub, eval_finsetSum, Finset.sum_eq_single_of_mem j hj, eval_mul, eval_C, hw j hj, sub_self]
      intro i hi hij
      rw [eval_mul, hloc.eval_cofactor_other hi (hroots i hi) hj (hroots j hj) hij.symm, mul_zero]
  have hprod : ∀ j < e, ((S - powerSums P loc w e) * L).coeff j = 0 := by
    intro j hj
    rw [sub_mul, coeff_sub, hloc.coeff_powerSums_mul hroots w hj, ← hfractions]
    rcases Nat.lt_or_ge j P.card with hlt | hge
    · rw [hOm j hlt, sub_self]
    · rw [hgen.coeff_mul j hge hj, hdegOm j hge, sub_self]
  have hdiff : ∀ j < e, (S - powerSums P loc w e).coeff j = 0 := by
    intro j
    induction j using Nat.strong_induction_on with
    | _ j ih =>
      intro hj
      rw [← coeff_mul_of_zeros_below hgen.coeff_zero hgen.natDegree_le fun k _ hk => ih k hk (hk.trans hj)]
      exact hprod j hj
  intro j hj
  have heq := hdiff j hj
  rwa [coeff_sub, coeff_powerSums hj, sub_eq_zero] at heq

end Domain

end Locators

end Sys2Proof.Machine
end

section
/-! PROOFS. What RSDEC is worth (43_rs_decoder.md R222 to R224): Forney's formula never divides by zero, a block that is
accepted is a codeword afterwards, and a block within t cells of a codeword is restored to it. -/

-- One declaration at a time: the stacks of parallel elaboration can exceed the memory that the check allows.
set_option Elab.async false

namespace Sys2Proof.Machine

open Polynomial

/-! ## The parameter check (43_rs_decoder.md R211) and the blocks that are not corrected (R217, R218) -/

theorem rsBadParameter_of_not_ready {s : State} (hr : ¬ RsReady s) : rsBadParameter s = true := by
  rw [RsReady] at hr
  simp only [rsBadParameter, Bool.or_eq_true, decide_eq_true_iff]
  omega

/-- Settles O46. -/
theorem rsdecChecksItsParameters : Obligations.RsdecChecksItsParameters := by
  unfold Obligations.RsdecChecksItsParameters
  refine ⟨rfl, fun s hs hr => ?_⟩
  rw [exec, execRsdec, unlessLatched_of_clear hs, if_pos (rsBadParameter_of_not_ready hr)]
  exact raiseFault_eq_faulted .badParameter _ (setRsok s false)

/-- A block for which one of the two tests fails ends with the solution stored. -/
theorem exec_rsdec_of_uncorrectable {s : State} (hs : s.err = false) (hr : RsReady s)
    (hc : ¬ IsCodeword (readCell s .cw) (blockLength s) s.rs.e.toNat)
    (hfail : s.rs.e.toNat / 2 < (solved s).l ∨ (rootPositions s).length ≠ (solved s).l) :
    exec .rsdec s = failRsdec .blockUncorrectable (encode .rsdec) (storeSolution s) := by
  rw [exec_rsdec_of_not_codeword hs hr hc, correctBlock]
  split
  next => rfl
  next hl => exact if_pos (hfail.resolve_left hl)

/-- Settles O50: the solution is stored before the tests, and a failing one stores nothing more. -/
theorem rsdecReportsUncorrectableBlocks : Obligations.RsdecReportsUncorrectableBlocks := by
  unfold Obligations.RsdecReportsUncorrectableBlocks
  intro s hs hr hc hfail
  obtain ⟨t, hnext, ht, hsame⟩ := exists_failRsdec .blockUncorrectable (encode .rsdec) (storeSolution s)
  refine ⟨t, (exec_rsdec_of_uncorrectable hs hr hc hfail).trans hnext, ?_, fun i hi => ?_, fun i hi => ⟨?_, ?_⟩,
    fun sp hsp i => ?_⟩
  · obtain ⟨m, hm⟩ := storeLocator_storeSyndromes_frame s (blockSyndromes s) (solved s).c (solved s).l
    rw [ht, storeSolution, hm]
    rfl
  · rw [hsame, readCell_storeSolution, if_pos ⟨rfl, hi⟩]
  · rw [hsame, readCell_storeSolution]
    simp [hi]
  · rw [hsame, readCell_storeSolution]
    simp [hi]
  · rw [hsame, readCell_storeSolution]
    rcases hsp with rfl | rfl | rfl | rfl | rfl <;> simp

/-! ## Locators of a block (43_rs_decoder.md R212) -/

/-- The locator of CW index `i` of a block of `n` cells. -/
noncomputable def locator (n i : Nat) : AdjoinRoot modulus := alpha ^ (n - 1 - i)

theorem residue_inverseLocator (n i : Nat) : residue (inverseLocator n i) = alpha ^ (255 - (n - 1 - i)) := by
  rw [inverseLocator, gfExp_eq_alphaPow, alphaPow_mod, residue_alphaPow]

theorem locator_mul_inverse {n : Nat} (hn : n ≤ 255) (i : Nat) : locator n i * residue (inverseLocator n i) = 1 := by
  rw [locator, residue_inverseLocator, ← pow_add, Nat.add_sub_cancel' (by omega), ← orderOf_alpha, pow_orderOf_eq_one]

theorem locators_of_block {n : Nat} (hn : n ≤ 255) {P : Finset Nat} (hP : ∀ i ∈ P, i < n) :
    Locators P (locator n) (fun i => residue (inverseLocator n i)) where
  mul_inv := fun i _ => locator_mul_inverse hn i
  injOn := by
    intro i hi j hj hij
    have hin := hP i hi
    have hjn := hP j hj
    have hexp : n - 1 - i = n - 1 - j :=
      pow_injOn_Iio_orderOf (by rw [orderOf_alpha, Set.mem_Iio]; omega) (by rw [orderOf_alpha, Set.mem_Iio]; omega) hij
    omega

theorem residue_syndromeSum_locator (cw : Nat → Byte) (n j : Nat) :
    residue (syndromeSum cw n j) = ∑ i ∈ Finset.range n, residue (cw i) * locator n i ^ j := by
  simp only [residue_syndromeSum, locator, ← pow_mul, Nat.mul_comm j]

/-- The syndromes of two blocks differ by the power sums of their differences. -/
theorem residue_syndromeSum_add {cw cw' : Nat → Byte} {n : Nat} {P : Finset Nat} (hP : ∀ i ∈ P, i < n)
    (hsame : ∀ i < n, i ∉ P → cw i = cw' i) (j : Nat) :
    residue (syndromeSum cw n j) + residue (syndromeSum cw' n j) =
      ∑ i ∈ P, residue (cw i ^^^ cw' i) * locator n i ^ j := by
  have hsub : P ⊆ Finset.range n := fun i hi => Finset.mem_range.2 (hP i hi)
  rw [residue_syndromeSum_locator, residue_syndromeSum_locator, ← Finset.sum_add_distrib, ← Finset.sum_subset hsub]
  · exact Finset.sum_congr rfl fun i _ => by rw [residue_xor, add_mul]
  · intro i hi hiP
    rw [hsame i (Finset.mem_range.1 hi) hiP]
    exact add_self_residues _

/-- Two codewords differ in more than E cells or in none (43_rs_decoder.md R213). -/
theorem eq_of_codewords {cw cw' : Nat → Byte} {n e : Nat} (hn : n ≤ 255) (h : IsCodeword cw n e)
    (h' : IsCodeword cw' n e) {P : Finset Nat} (hP : ∀ i ∈ P, i < n) (hcard : P.card ≤ e)
    (hsame : ∀ i < n, i ∉ P → cw i = cw' i) : ∀ i < n, cw i = cw' i := by
  have := isDomain_residues
  have hsums : ∀ j < P.card, ∑ i ∈ P, residue (cw i ^^^ cw' i) * locator n i ^ j = 0 := by
    intro j hj
    rw [← residue_syndromeSum_add hP hsame, h j (hj.trans_le hcard), h' j (hj.trans_le hcard)]
    exact add_self_residues _
  intro i hi
  by_cases hiP : i ∈ P
  · have hzero := (locators_of_block hn hP).eq_zero_of_power_sums hsums i hiP
    exact BitVec.xor_eq_zero_iff.1 ((residue_eq_zero_iff _).1 hzero)
  · exact hsame i hi hiP

/-! ## What the search, the evaluator and Forney's formula compute, on polynomials (43_rs_decoder.md R218 to R220) -/

/-- Horner's rule from the highest coefficient down. -/
theorem residue_foldr_horner (f : Nat → Byte) (x v : Byte) (n : Nat) :
    residue ((List.range n).foldr (fun k v => gfMul v x ^^^ f k) v) =
      ∑ k ∈ Finset.range n, residue (f k) * residue x ^ k + residue v * residue x ^ n := by
  induction n generalizing v with
  | zero => simp
  | succ n ih =>
    rw [List.range_succ, List.foldr_append, List.foldr_cons, List.foldr_nil, ih, residue_xor, residue_gfMul,
      Finset.sum_range_succ]
    ring

theorem residue_foldr_horner_listPoly {p : List Byte} {n : Nat} (hp : ∀ k, n ≤ k → coef p k = 0) (x : Byte) :
    residue ((List.range n).foldr (fun k v => gfMul v x ^^^ coef p k) 0) = (listPoly p).eval (residue x) := by
  have hzero : ∀ k, n ≤ k → (listPoly p).coeff k = 0 := fun k hk => by
    rw [coeff_listPoly, hp k hk]
    exact residue_zero
  have hdeg : (listPoly p).natDegree < n + 1 :=
    Nat.lt_succ_of_le (natDegree_le_iff_coeff_eq_zero.2 fun k hk => hzero k hk.le)
  rw [residue_foldr_horner, eval_eq_sum_range' hdeg, Finset.sum_range_succ, hzero n le_rfl]
  simp

theorem charTwo_residues : CharP (AdjoinRoot modulus) 2 := by
  have := isDomain_residues
  exact CharTwo.of_one_ne_zero_of_two_eq_zero one_ne_zero (one_add_one_eq_two.symm.trans (add_self_residues 1))

theorem residue_foldl_xor_filter (f : Nat → Byte) (p : Nat → Prop) [DecidablePred p] (n : Nat) :
    residue (((List.range n).filter (fun k => decide (p k))).foldl (fun d k => d ^^^ f k) 0) =
      ∑ k ∈ Finset.range n, if p k then residue (f k) else 0 := by
  rw [residue_foldl_xor, ← List.sum_toFinset _ (List.nodup_range.filter _), List.toFinset_filter, List.toFinset_range]
  simp [Finset.sum_filter]

/-- The odd coefficients make up the formal derivative in characteristic 2. -/
theorem residue_forneyDen {c : List Byte} {l : Nat} (hc : (listPoly c).natDegree ≤ l) (n i : Nat) :
    residue (forneyDen c l n i) = (listPoly c).derivative.eval (residue (inverseLocator n i)) := by
  have := charTwo_residues
  rw [forneyDen, residue_foldl_xor_filter, derivative_eval, sum_over_range' _ (by simp) (l + 1) (by omega)]
  refine Finset.sum_congr rfl fun k _ => ?_
  rw [coeff_listPoly, CharTwo.natCast_eq_mod, residue_inverseLocator, ← pow_mul]
  rcases Nat.mod_two_eq_zero_or_one k with hk | hk
  · simp [hk]
  · simp [hk, gfExp_eq_alphaPow, alphaPow_mod]

theorem coef_evaluator (c syn : List Byte) {l k : Nat} (hk : l ≤ k) : coef (evaluator c syn l) k = 0 := by
  rw [evaluator, coef_map_range, if_neg (Nat.not_lt.2 hk)]

/-- Below its length, the evaluator is the product of the syndromes with the locator polynomial. -/
theorem coeff_listPoly_evaluator (c syn : List Byte) {l k : Nat} (hk : k < l) :
    (listPoly (evaluator c syn l)).coeff k = (listPoly syn * listPoly c).coeff k := by
  rw [coeff_listPoly, evaluator, coef_map_range, if_pos hk, residue_foldl_xor_range, mul_comm, coeff_mul,
    Finset.Nat.sum_antidiagonal_eq_sum_range_succ_mk]
  simp

theorem residue_forneyNum (c syn : List Byte) (l n i : Nat) :
    residue (forneyNum (evaluator c syn l) l n i) =
      (listPoly (evaluator c syn l)).eval (residue (inverseLocator n i)) :=
  residue_foldr_horner_listPoly (fun _ => coef_evaluator c syn) (inverseLocator n i)

/-! ## The root positions (43_rs_decoder.md R218) -/

/-- The root positions as a set. -/
def rootSet (s : State) : Finset Nat := (rootPositions s).toFinset

theorem mem_rootSet {s : State} {i : Nat} : i ∈ rootSet s ↔ i ∈ rootPositions s := List.mem_toFinset

theorem card_rootSet (s : State) : (rootSet s).card = (rootPositions s).length :=
  List.toFinset_card_of_nodup (nodup_rootPositions s)

theorem lt_of_mem_rootSet {s : State} : ∀ i ∈ rootSet s, i < blockLength s := fun _ hi =>
  lt_blockLength_of_mem_rootPositions s (mem_rootSet.1 hi)

theorem solverInv_solved (s : State) : SolverInv (blockSyndromes s) (solved s) s.rs.e.toNat :=
  solverInv_berlekampMassey _ _

theorem residue_evalPoly_solved (s : State) (x : Byte) :
    residue (evalPoly (solved s).c (solved s).l x) = (listPoly (solved s).c).eval (residue x) :=
  residue_foldr_horner_listPoly (fun _ => (solverInv_solved s).coef_c_eq_zero) x

theorem mem_rootSet_iff {s : State} {i : Nat} :
    i ∈ rootSet s ↔
      i < blockLength s ∧ (listPoly (solved s).c).eval (residue (inverseLocator (blockLength s) i)) = 0 := by
  rw [mem_rootSet, rootPositions, chien, List.mem_filter, List.mem_range, decide_eq_true_iff, ← residue_eq_zero_iff,
    residue_evalPoly_solved]

theorem eval_of_mem_rootSet {s : State} :
    ∀ i ∈ rootSet s, (listPoly (solved s).c).eval (residue (inverseLocator (blockLength s) i)) = 0 := fun _ hi =>
  (mem_rootSet_iff.1 hi).2

theorem generates_card_rootSet {s : State} (hroots : (rootPositions s).length = (solved s).l) :
    Generates (listPoly (blockSyndromes s)) (listPoly (solved s).c) (rootSet s).card s.rs.e.toNat := by
  rw [card_rootSet, hroots]
  exact (solverInv_solved s).generates

theorem blockLength_le_of_ready {s : State} (hr : RsReady s) : blockLength s ≤ 255 := hr.2.2

section Ready
variable {s : State} (hr : RsReady s)
include hr

theorem locators_rootSet :
    Locators (rootSet s) (locator (blockLength s)) (fun i => residue (inverseLocator (blockLength s) i)) :=
  locators_of_block (blockLength_le_of_ready hr) lt_of_mem_rootSet

/-- The locator polynomial has no more roots than its length. -/
theorem card_rootSet_le : (rootSet s).card ≤ (solved s).l := by
  have := isDomain_residues
  have hgen := (solverInv_solved s).generates
  by_contra hlt
  have hzero := (locators_rootSet hr).eq_zero_of_roots
    (fun k hk => coeff_eq_zero_of_natDegree_lt (hgen.natDegree_le.trans_lt ((Nat.not_le.1 hlt).trans_le hk)))
    eval_of_mem_rootSet
  have hone := hgen.coeff_zero
  rw [hzero, coeff_zero] at hone
  exact zero_ne_one hone

section AllRoots
variable (hroots : (rootPositions s).length = (solved s).l)
include hroots

theorem forneyDen_ne_zero {i : Nat} (hi : i ∈ rootSet s) :
    forneyDen (solved s).c (solved s).l (blockLength s) i ≠ 0 := by
  have := isDomain_residues
  have hgen := generates_card_rootSet hroots
  rw [ne_eq, ← residue_eq_zero_iff, residue_forneyDen (solverInv_solved s).generates.natDegree_le]
  exact (locators_rootSet hr).eval_derivative_ne_zero hgen.natDegree_le eval_of_mem_rootSet hgen.coeff_zero hi

/-- Forney's formula determines the magnitude by the evaluator and the other roots. -/
theorem residue_magnitude_mul_cofactor {i : Nat} (hi : i ∈ rootSet s) :
    residue (magnitude s i) *
        (cofactor (listPoly (solved s).c) (residue (inverseLocator (blockLength s) i))).eval
          (residue (inverseLocator (blockLength s) i)) =
      (listPoly (evaluator (solved s).c (blockSyndromes s) (solved s).l)).eval
        (residue (inverseLocator (blockLength s) i)) := by
  have := charTwo_residues
  have hdiv := congrArg residue (gfMul_gfDivFree
    (forneyNum (evaluator (solved s).c (blockSyndromes s) (solved s).l) (solved s).l (blockLength s) i)
    (forneyDen_ne_zero hr hroots hi))
  rw [residue_gfMul, residue_forneyDen (solverInv_solved s).generates.natDegree_le,
    (locators_rootSet hr).eval_derivative hi (eval_of_mem_rootSet i hi), CharTwo.neg_eq] at hdiv
  rw [← residue_forneyNum, ← hdiv, magnitude, forney, residue_gfMul, gfExp_eq_alphaPow, residue_alphaPow, locator]
  exact (mul_assoc _ _ _).trans (mul_left_comm _ _ _)

/-- The syndromes are the power sums of the magnitudes. -/
theorem residue_syndromeSum_eq_magnitudes {j : Nat} (hj : j < s.rs.e.toNat) :
    residue (syndromeSum (readCell s .cw) (blockLength s) j) =
      ∑ i ∈ rootSet s, residue (magnitude s i) * locator (blockLength s) i ^ j := by
  have := isDomain_residues
  have hcard : (rootSet s).card = (solved s).l := (card_rootSet s).trans hroots
  have hsums := (locators_rootSet hr).coeff_eq_power_sums (generates_card_rootSet hroots) eval_of_mem_rootSet
    (fun k hk => by rw [coeff_listPoly, coef_evaluator _ _ (hcard ▸ hk)]; exact residue_zero)
    (fun _ hk => coeff_listPoly_evaluator _ _ (hcard ▸ hk))
    (fun i => residue_magnitude_mul_cofactor hr hroots) j hj
  rwa [coeff_listPoly, coef_blockSyndromes, if_pos hj] at hsums

theorem isCodeword_correctedBlock :
    IsCodeword (readCell (correctedBlock s) .cw) (blockLength s) s.rs.e.toNat := by
  intro j hj
  have hmag : ∀ i ∈ rootSet s, readCell (correctedBlock s) .cw i ^^^ readCell s .cw i = magnitude s i := by
    intro i hi
    rw [readCell_correctedBlock_cw, if_pos (mem_rootSet.1 hi), BitVec.xor_comm, ← BitVec.xor_assoc, BitVec.xor_self]
    exact BitVec.zero_xor
  have hadd := residue_syndromeSum_add (cw := readCell (correctedBlock s) .cw) (cw' := readCell s .cw)
    lt_of_mem_rootSet (fun i _ hi => by rw [readCell_correctedBlock_cw, if_neg (mt mem_rootSet.2 hi)]) j
  rw [Finset.sum_congr rfl fun i hi => by rw [hmag i hi], ← residue_syndromeSum_eq_magnitudes hr hroots hj,
    add_eq_right] at hadd
  exact (residue_eq_zero_iff _).1 hadd

end AllRoots

end Ready

/-- Settles O52: the locator polynomial has as many roots as its length, so none is a root of its derivative. -/
theorem forneyNeverDividesByZero : Obligations.ForneyNeverDividesByZero := by
  unfold Obligations.ForneyNeverDividesByZero
  exact fun s hr hroots i hi => forneyDen_ne_zero hr hroots (mem_rootSet.2 hi)

/-! ## A block that is accepted (43_rs_decoder.md R222) -/

/-- RSDEC sets RSOK on a codeword, which it leaves, and on a block that it corrects at every root. -/
theorem rsdec_accepts {s t : State} (hs : s.err = false) (hnext : exec .rsdec s = .next t) (hok : t.rsok = true) :
    (IsCodeword (readCell s .cw) (blockLength s) s.rs.e.toNat ∧ readCell t .cw = readCell s .cw) ∨
      (RsReady s ∧ (rootPositions s).length = (solved s).l ∧ readCell t .cw = readCell (correctedBlock s) .cw) := by
  by_cases hr : RsReady s
  case neg =>
    rw [rsdecChecksItsParameters.2 s hs hr] at hnext
    cases hnext
    cases hok
  by_cases hc : IsCodeword (readCell s .cw) (blockLength s) s.rs.e.toNat
  · obtain ⟨u, hu, -, -, -, -, hsame⟩ := rsdecAcceptsACodeword s hs hr hc
    cases hnext.symm.trans hu
    exact .inl ⟨hc, funext fun i => hsame .cw (.inl rfl) i⟩
  by_cases hfail : s.rs.e.toNat / 2 < (solved s).l ∨ (rootPositions s).length ≠ (solved s).l
  · rw [exec_rsdec_of_uncorrectable hs hr hc hfail] at hnext
    rw [failRsdec_next hnext] at hok
    cases hok
  · obtain ⟨hl, hroots⟩ := not_or.1 hfail
    obtain ⟨u, hu, -, hsame⟩ := exists_endRsdec (correctedBlock s)
    rw [exec_rsdec_of_all_roots hs hr hc (Nat.not_lt.1 hl) (not_not.1 hroots)] at hnext
    cases hnext.symm.trans hu
    exact .inr ⟨hr, not_not.1 hroots, funext (hsame .cw)⟩

/-- Settles O53: an accepted block was a codeword or is corrected by the power sums that are its syndromes. -/
theorem rsdecSuccessLeavesACodeword : Obligations.RsdecSuccessLeavesACodeword := by
  unfold Obligations.RsdecSuccessLeavesACodeword
  intro s t hs hnext hok
  obtain ⟨hc, hcw⟩ | ⟨hr, hroots, hcw⟩ := rsdec_accepts hs hnext hok
  · rwa [hcw]
  · rw [hcw]
    exact isCodeword_correctedBlock hr hroots

/-! ## A block with few errors (43_rs_decoder.md R223 (a)) -/

/-- The CW indices where the block differs from `cw`. -/
def errorPositions (s : State) (cw : Nat → Byte) : List Nat :=
  (List.range (blockLength s)).filter (fun i => decide (readCell s .cw i ≠ cw i))

/-- The error positions as a set. -/
def errorSet (s : State) (cw : Nat → Byte) : Finset Nat := (errorPositions s cw).toFinset

theorem card_errorSet (s : State) (cw : Nat → Byte) : (errorSet s cw).card = (errorPositions s cw).length :=
  List.toFinset_card_of_nodup (List.nodup_range.filter _)

theorem mem_errorSet {s : State} {cw : Nat → Byte} {i : Nat} :
    i ∈ errorSet s cw ↔ i < blockLength s ∧ readCell s .cw i ≠ cw i := by
  simp [errorSet, errorPositions]

/-- The syndromes are the power sums of the errors. -/
theorem coeff_syndromes_eq_errors {s : State} {cw : Nat → Byte} (hcw : IsCodeword cw (blockLength s) s.rs.e.toNat)
    {j : Nat} (hj : j < s.rs.e.toNat) :
    (listPoly (blockSyndromes s)).coeff j =
      ∑ i ∈ errorSet s cw, residue (readCell s .cw i ^^^ cw i) * locator (blockLength s) i ^ j := by
  have hsame : ∀ i < blockLength s, i ∉ errorSet s cw → readCell s .cw i = cw i := fun i hi hne => by
    simpa [mem_errorSet, hi] using hne
  rw [coeff_listPoly, coef_blockSyndromes, if_pos hj,
    ← residue_syndromeSum_add (fun i hi => (mem_errorSet.1 hi).1) hsame, hcw j hj]
  exact (add_eq_left.2 residue_zero).symm

/-- The product of `1 − xX_i` over the error positions. -/
noncomputable def errorLocator (s : State) (cw : Nat → Byte) : (AdjoinRoot modulus)[X] :=
  ∏ i ∈ errorSet s cw, (1 - C (locator (blockLength s) i) * X)

theorem coeff_zero_errorLocator (s : State) (cw : Nat → Byte) : (errorLocator s cw).coeff 0 = 1 := by
  rw [coeff_zero_eq_eval_zero, errorLocator, eval_prod]
  simp

theorem natDegree_errorLocator_le (s : State) (cw : Nat → Byte) :
    (errorLocator s cw).natDegree ≤ (errorSet s cw).card := by
  refine (natDegree_prod_le _ _).trans ((Finset.sum_le_card_nsmul _ _ 1 fun i _ => ?_).trans (by simp))
  compute_degree

section Errors
variable {s : State} {cw : Nat → Byte} (hr : RsReady s)
  (hcw : IsCodeword cw (blockLength s) s.rs.e.toNat)
include hr

theorem locators_errorSet :
    Locators (errorSet s cw) (locator (blockLength s)) (fun i => residue (inverseLocator (blockLength s) i)) :=
  locators_of_block (blockLength_le_of_ready hr) fun _ hi => (mem_errorSet.1 hi).1

theorem eval_errorLocator {i : Nat} (hi : i ∈ errorSet s cw) :
    (errorLocator s cw).eval (residue (inverseLocator (blockLength s) i)) = 0 := by
  rw [errorLocator, eval_prod]
  refine Finset.prod_eq_zero hi ?_
  simp [locator_mul_inverse (blockLength_le_of_ready hr)]

include hcw

theorem generates_errorLocator :
    Generates (listPoly (blockSyndromes s)) (errorLocator s cw) (errorSet s cw).card s.rs.e.toNat where
  coeff_zero := coeff_zero_errorLocator s cw
  natDegree_le := natDegree_errorLocator_le s cw
  coeff_mul := fun j hj hje => by
    rw [(locators_errorSet hr).coeff_mul_of_power_sums
      (fun k hk => coeff_syndromes_eq_errors hcw (hk.trans_lt hje)) ((natDegree_errorLocator_le s cw).trans hj)]
    exact Finset.sum_eq_zero fun i hi => by rw [eval_errorLocator hr hi, mul_zero, zero_mul]

theorem solved_l_le : (solved s).l ≤ (errorSet s cw).card :=
  (solverInv_solved s).shortest _ _ (generates_errorLocator hr hcw)

/-- With at most t errors, the solver's polynomial vanishes at every error: its product with the syndromes has as many
zero coefficients in a row as there are errors. -/
theorem errorSet_subset_rootSet (hcard : 2 * (errorSet s cw).card ≤ s.rs.e.toNat) : errorSet s cw ⊆ rootSet s := by
  have := isDomain_residues
  have hloc := locators_errorSet (cw := cw) hr
  have hgen := (solverInv_solved s).generates
  have hl := solved_l_le hr hcw
  have hsums : ∀ j < (errorSet s cw).card, ∑ i ∈ errorSet s cw,
      residue (readCell s .cw i ^^^ cw i) *
        (listPoly (solved s).c).eval (residue (inverseLocator (blockLength s) i)) *
          locator (blockLength s) i ^ (solved s).l * locator (blockLength s) i ^ j = 0 := by
    intro j hj
    rw [← hgen.coeff_mul ((solved s).l + j) (by omega) (by omega), hloc.coeff_mul_of_power_sums
      (fun k hk => coeff_syndromes_eq_errors hcw (by omega)) (hgen.natDegree_le.trans (by omega))]
    exact Finset.sum_congr rfl fun i _ => by rw [mul_assoc, pow_add]
  intro i hi
  obtain ⟨hin, hne⟩ := mem_errorSet.1 hi
  have hweight : residue (readCell s .cw i ^^^ cw i) ≠ 0 := by
    rw [ne_eq, residue_eq_zero_iff]
    exact mt BitVec.xor_eq_zero_iff.1 hne
  have hzero := hloc.eq_zero_of_power_sums hsums i hi
  rw [mul_eq_zero, mul_eq_zero, or_iff_left (pow_ne_zero _ (hloc.loc_ne_zero hi)), or_iff_right hweight] at hzero
  exact mem_rootSet_iff.2 ⟨hin, hzero⟩

/-- With at most t errors, the root positions are the error positions. -/
theorem rootSet_eq_errorSet (hcard : 2 * (errorSet s cw).card ≤ s.rs.e.toNat) :
    rootSet s = errorSet s cw ∧ (solved s).l = (errorSet s cw).card := by
  have hsub := errorSet_subset_rootSet hr hcw hcard
  have hle := Finset.card_le_card hsub
  have hroots := card_rootSet_le hr
  have hl := solved_l_le hr hcw
  exact ⟨(Finset.eq_of_subset_of_card_le hsub (by omega)).symm, by omega⟩

end Errors

/-- Settles O54: the corrected block is a codeword, and as such too close to the original one to differ from it. -/
theorem rsdecRestoresUpToTErrors : Obligations.RsdecRestoresUpToTErrors := by
  unfold Obligations.RsdecRestoresUpToTErrors
  intro s cw hs hr hcw hfew
  rw [← errorPositions, ← card_errorSet] at hfew ⊢
  have hn := blockLength_le_of_ready hr
  have hin : ∀ i ∈ errorSet s cw, i < blockLength s := fun i hi => (mem_errorSet.1 hi).1
  have hout : ∀ i < blockLength s, i ∉ errorSet s cw → readCell s .cw i = cw i := fun i hi hne => by
    simpa [mem_errorSet, hi] using hne
  by_cases hc : IsCodeword (readCell s .cw) (blockLength s) s.rs.e.toNat
  · have heq := eq_of_codewords hn hc hcw hin (by omega) hout
    have hnone : errorSet s cw = ∅ := Finset.eq_empty_of_forall_notMem fun i hi =>
      (mem_errorSet.1 hi).2 (heq i (hin i hi))
    obtain ⟨t, hnext, ht, -, -, -, hsame⟩ := rsdecAcceptsACodeword s hs hr hc
    refine ⟨t, hnext, by rw [ht], by rw [ht, hs], fun i hi => (hsame .cw (.inl rfl) i).trans (heq i hi), ?_⟩
    rw [ht, hnone]
    rfl
  · obtain ⟨hset, hl⟩ := rootSet_eq_errorSet hr hcw (by omega)
    have hroots : (rootPositions s).length = (solved s).l := by rw [← card_rootSet, hset, hl]
    obtain ⟨t, hnext, ht, hcells, -⟩ := rsdecCorrectsTheRootPositions s hs hr hc (by omega) hroots
    have hok : t.rsok = true := by rw [ht]
    have hcode := rsdecSuccessLeavesACodeword s t hs hnext hok
    refine ⟨t, hnext, hok, by rw [ht, hs], eq_of_codewords hn hcode hcw hin (by omega) fun i hi hne => ?_, ?_⟩
    · rw [hcells, if_neg (mt mem_rootSet.2 (hset ▸ hne)), hout i hi hne]
    · obtain ⟨-, -, hlen⟩ := hr
      rw [ht, ← hl]
      exact Nat.mod_eq_of_lt (by omega)

end Sys2Proof.Machine
end

section
/-! PROOFS. The grid sampler where every module maps in, and what its transform is (42_grid_sampler.md R184 to R192). -/

-- One declaration at a time: the stacks of parallel elaboration can exceed the memory that the check allows.
set_option Elab.async false

namespace Sys2Proof.Machine

/-! ## GSRUN where every module maps in (42_grid_sampler.md R191) -/

/-- GSRUN after its checks, where no module maps out. -/
theorem sampleGrid_of_all_in {s : State} (hin : ∀ j ∈ moduleOrder s, ¬ IndexMapsOut s j) :
    sampleGrid s = .next
      { writeFirst s .mm ((moduleOrder s).map (moduleSample s)) with gsok := true, rspOut := s.rspOut ++ [0] } := by
  have hsamples : sampleModules s (transform s) (moduleOrder s) = ((moduleOrder s).map (moduleSample s), none) := by
    rw [← List.append_nil (moduleOrder s), sampleModules_append hin, sampleModules, List.append_nil, List.append_nil]
  rw [sampleGrid, hsamples]
  exact respond_eq_next _ 0

/-- Settles O42: the samples of all modules are written to the first cells of MM. -/
theorem gsrunSamplesEveryModule : Obligations.GsrunSamplesEveryModule := by
  unfold Obligations.GsrunSamplesEveryModule
  intro s hs hl hb hin
  have hall : ∀ j ∈ moduleOrder s, ¬ IndexMapsOut s j := by
    intro j hj
    have hlt : j < s.gs.size.toNat * s.gs.size.toNat := List.mem_range.1 hj
    exact hin _ _ (Nat.mod_lt j (Nat.pos_of_mul_pos_right (Nat.zero_lt_of_lt hlt))) (Nat.div_lt_of_lt_mul hlt)
  have hrun := exec_gsrun_of_good hs hl hb
  rw [sampleGrid_of_all_in hall] at hrun
  refine ⟨_, hrun, rfl, fun c r px py hc hr hmap => ?_, fun i hi => ?_, fun sp hsp i => ?_⟩
  · exact (readCell_writeSamples_mm (moduleIndex_lt hc hr)).trans (moduleSample_of_mapsTo hc hmap)
  · exact readCell_writeSamples_other fun _ => hi
  · exact readCell_writeSamples_other (absurd · hsp)

/-! ## The transform (42_grid_sampler.md R184 to R187) -/

/-- The determinant of a matrix. -/
def Mat3.det (m : Mat3) : Int :=
  m.a * (m.e * m.i - m.f * m.h) - m.b * (m.d * m.i - m.f * m.g) + m.c * (m.d * m.h - m.e * m.g)

theorem det_matMul (x y : Mat3) : (matMul x y).det = x.det * y.det := by
  simp only [Mat3.det, matMul]
  ring

theorem det_adj (m : Mat3) : (adj m).det = m.det ^ 2 := by
  simp only [Mat3.det, adj]
  ring

/-- The weights of `basis` and the determinant of its three points. -/
theorem det_basis (q : Quad) : (basis q).det = quadLam q * quadMu q * quadTau q * quadDd q := by
  simp only [Mat3.det, basis, quadDd, det3]
  ring

/-- A column of three integers: a point in homogeneous coordinates. -/
structure Column where
  x : Int
  y : Int
  z : Int

def IntPoint.column (p : IntPoint) : Column := ⟨p.fst, p.snd, 1⟩

def Column.scale (k : Int) (v : Column) : Column := ⟨k * v.x, k * v.y, k * v.z⟩

/-- The matrix times a column. -/
def Mat3.apply (m : Mat3) (v : Column) : Column :=
  ⟨m.a * v.x + m.b * v.y + m.c * v.z, m.d * v.x + m.e * v.y + m.f * v.z, m.g * v.x + m.h * v.y + m.i * v.z⟩

theorem apply_matMul (x y : Mat3) (v : Column) : (matMul x y).apply v = x.apply (y.apply v) := by
  simp only [Mat3.apply, matMul, Column.mk.injEq]
  refine ⟨?_, ?_, ?_⟩ <;> ring

/-- The coordinates of H·(u, v, 1)ᵀ are the image of the point as a column (42_grid_sampler.md R188). -/
theorem apply_column (m : Mat3) (p : IntPoint) :
    m.apply p.column = ⟨imageX m p.fst p.snd, imageY m p.fst p.snd, imageW m p.fst p.snd⟩ := by
  simp only [Mat3.apply, IntPoint.column, imageX, imageY, imageW, mul_one]

section Quads
variable (q : Quad)

/-! `adj (basis q)` sends the four points to multiples of the axes and of (1, 1, 1), and `basis q` sends these back. -/

theorem adj_basis_p0 :
    (adj (basis q)).apply q.p0.column = ⟨quadMu q * quadTau q * quadDd q, 0, 0⟩ := by
  simp only [Mat3.apply, IntPoint.column, adj, basis, quadDd, det3, Column.mk.injEq]
  refine ⟨?_, ?_, ?_⟩ <;> ring

theorem adj_basis_p1 :
    (adj (basis q)).apply q.p1.column = ⟨0, quadLam q * quadTau q * quadDd q, 0⟩ := by
  simp only [Mat3.apply, IntPoint.column, adj, basis, quadDd, det3, Column.mk.injEq]
  refine ⟨?_, ?_, ?_⟩ <;> ring

theorem adj_basis_p2 :
    (adj (basis q)).apply q.p2.column = ⟨0, 0, quadLam q * quadMu q * quadDd q⟩ := by
  simp only [Mat3.apply, IntPoint.column, adj, basis, quadDd, det3, Column.mk.injEq]
  refine ⟨?_, ?_, ?_⟩ <;> ring

theorem adj_basis_p3 :
    (adj (basis q)).apply q.p3.column =
      ⟨quadLam q * quadMu q * quadTau q, quadLam q * quadMu q * quadTau q, quadLam q * quadMu q * quadTau q⟩ := by
  simp only [Mat3.apply, IntPoint.column, adj, basis, quadLam, quadMu, quadTau, det3, Column.mk.injEq]
  refine ⟨?_, ?_, ?_⟩ <;> ring

theorem basis_axis0 (k : Int) : (basis q).apply ⟨k, 0, 0⟩ = q.p0.column.scale (k * quadLam q) := by
  simp only [Mat3.apply, IntPoint.column, Column.scale, basis, Column.mk.injEq]
  refine ⟨?_, ?_, ?_⟩ <;> ring

theorem basis_axis1 (k : Int) : (basis q).apply ⟨0, k, 0⟩ = q.p1.column.scale (k * quadMu q) := by
  simp only [Mat3.apply, IntPoint.column, Column.scale, basis, Column.mk.injEq]
  refine ⟨?_, ?_, ?_⟩ <;> ring

theorem basis_axis2 (k : Int) : (basis q).apply ⟨0, 0, k⟩ = q.p2.column.scale (k * quadTau q) := by
  simp only [Mat3.apply, IntPoint.column, Column.scale, basis, Column.mk.injEq]
  refine ⟨?_, ?_, ?_⟩ <;> ring

/-- The three weighted points add up to a multiple of the fourth (42_grid_sampler.md R185, R186). -/
theorem basis_diagonal (k : Int) : (basis q).apply ⟨k, k, k⟩ = q.p3.column.scale (k * quadDd q) := by
  simp only [Mat3.apply, IntPoint.column, Column.scale, basis, quadLam, quadMu, quadTau, quadDd, det3, Column.mk.injEq]
  refine ⟨?_, ?_, ?_⟩ <;> ring

end Quads

/-- The four integers of a quadruple of which no three points are collinear. -/
theorem dets_ne_zero {q : Quad} (h : ¬ ThreeCollinear q) :
    quadLam q ≠ 0 ∧ quadMu q ≠ 0 ∧ quadTau q ≠ 0 ∧ quadDd q ≠ 0 := by
  rw [ThreeCollinear, not_or, not_or, not_or] at h
  exact h

/-- The transform sends the point `a` to a non-zero multiple of the point `b`. -/
def SendsPoint (s : State) (a b : IntPoint) : Prop :=
  ∃ k : Int, k ≠ 0 ∧ (transform s).apply a.column = b.column.scale k

theorem SendsPoint.image {s : State} {a b : IntPoint} (h : SendsPoint s a b) :
    ∃ k : Int, k ≠ 0 ∧ imageX (transform s) a.fst a.snd = k * b.fst ∧
      imageY (transform s) a.fst a.snd = k * b.snd ∧ imageW (transform s) a.fst a.snd = k := by
  obtain ⟨k, hk, himage⟩ := h
  rw [apply_column, IntPoint.column, Column.scale, Column.mk.injEq, mul_one] at himage
  exact ⟨k, hk, himage⟩

section Transform
variable {s : State} (hg : ¬ ThreeCollinear (gridQuad s)) (hp : ¬ ThreeCollinear (pixelQuad s))
include hg hp

theorem sendsPoint_p0 : SendsPoint s (gridQuad s).p0 (pixelQuad s).p0 := by
  obtain ⟨-, hmu, htau, hdd⟩ := dets_ne_zero hg
  obtain ⟨hlam, -⟩ := dets_ne_zero hp
  exact ⟨_, mul_ne_zero (mul_ne_zero (mul_ne_zero hmu htau) hdd) hlam,
    by rw [transform, apply_matMul, adj_basis_p0, basis_axis0]⟩

theorem sendsPoint_p1 : SendsPoint s (gridQuad s).p1 (pixelQuad s).p1 := by
  obtain ⟨hlam, -, htau, hdd⟩ := dets_ne_zero hg
  obtain ⟨-, hmu, -⟩ := dets_ne_zero hp
  exact ⟨_, mul_ne_zero (mul_ne_zero (mul_ne_zero hlam htau) hdd) hmu,
    by rw [transform, apply_matMul, adj_basis_p1, basis_axis1]⟩

theorem sendsPoint_p2 : SendsPoint s (gridQuad s).p2 (pixelQuad s).p2 := by
  obtain ⟨hlam, hmu, -, hdd⟩ := dets_ne_zero hg
  obtain ⟨-, -, htau, -⟩ := dets_ne_zero hp
  exact ⟨_, mul_ne_zero (mul_ne_zero (mul_ne_zero hlam hmu) hdd) htau,
    by rw [transform, apply_matMul, adj_basis_p2, basis_axis2]⟩

theorem sendsPoint_p3 : SendsPoint s (gridQuad s).p3 (pixelQuad s).p3 := by
  obtain ⟨hlam, hmu, htau, -⟩ := dets_ne_zero hg
  obtain ⟨-, -, -, hdd⟩ := dets_ne_zero hp
  exact ⟨_, mul_ne_zero (mul_ne_zero (mul_ne_zero hlam hmu) htau) hdd,
    by rw [transform, apply_matMul, adj_basis_p3, basis_diagonal]⟩

theorem det_transform_ne_zero : (transform s).det ≠ 0 := by
  have hbasis {q : Quad} (h : ¬ ThreeCollinear q) : (basis q).det ≠ 0 := by
    obtain ⟨hlam, hmu, htau, hdd⟩ := dets_ne_zero h
    rw [det_basis]
    exact mul_ne_zero (mul_ne_zero (mul_ne_zero hlam hmu) htau) hdd
  rw [transform, det_matMul, det_adj]
  exact mul_ne_zero (hbasis hp) (pow_ne_zero 2 (hbasis hg))

end Transform

/-- Between parallelograms the last row of the transform is (0, 0, ·), so the transform is affine
(42_grid_sampler.md R187). -/
theorem transform_affine {s : State}
    (hg : (gridQuad s).p3 = completeParallelogram (gridQuad s).p0 (gridQuad s).p1 (gridQuad s).p2)
    (hp : (pixelQuad s).p3 = completeParallelogram (pixelQuad s).p0 (pixelQuad s).p1 (pixelQuad s).p2) :
    (transform s).g = 0 ∧ (transform s).h = 0 := by
  have hdets {q : Quad} (h : q.p3 = completeParallelogram q.p0 q.p1 q.p2) :
      quadLam q = -quadDd q ∧ quadMu q = quadDd q ∧ quadTau q = quadDd q := by
    obtain ⟨p0, p1, p2, p3⟩ := q
    obtain rfl : p3 = completeParallelogram p0 p1 p2 := h
    exact quad_dets_completeParallelogram p0 p1 p2
  obtain ⟨hglam, hgmu, hgtau⟩ := hdets hg
  obtain ⟨hplam, hpmu, hptau⟩ := hdets hp
  simp only [transform, matMul, adj, basis, hglam, hgmu, hgtau, hplam, hpmu, hptau]
  exact ⟨by ring, by ring⟩

/-- With three points the fourth is completed, in the grid and in the image (42_grid_sampler.md R182). -/
theorem quadOf_p3_of_three {s : State} (h : s.gs.npts.toNat = 3) (p : Fin 4 → IntPoint) :
    (quadOf s p).p3 = completeParallelogram (quadOf s p).p0 (quadOf s p).p1 (quadOf s p).p2 :=
  if_pos h

/-- Settles O44: the points are sent to the axes and (1, 1, 1) by one matrix, and from there by the other. -/
theorem transformSendsGridPointsToPixelPoints : Obligations.TransformSendsGridPointsToPixelPoints := by
  unfold Obligations.TransformSendsGridPointsToPixelPoints
  intro s hg hp
  refine ⟨fun ab hab => ?_, det_transform_ne_zero hg hp, transform_affine,
    fun hthree => transform_affine (quadOf_p3_of_three hthree _) (quadOf_p3_of_three hthree _)⟩
  simp only [List.mem_cons, List.not_mem_nil, or_false] at hab
  rcases hab with rfl | rfl | rfl | rfl
  · exact (sendsPoint_p0 hg hp).image
  · exact (sendsPoint_p1 hg hp).image
  · exact (sendsPoint_p2 hg hp).image
  · exact (sendsPoint_p3 hg hp).image

end Sys2Proof.Machine
end

section
/-! PROOFS. What a command can do, said once: how it may end (30_encoding.md R93, R95; 60_exceptions.md R263, R264), and
the state it leaves before its response in each case. -/

-- One declaration at a time: the stacks of parallel elaboration can exceed the memory that the check allows.
set_option Elab.async false

namespace Sys2Proof.Machine

/-! ## The ends of a command -/

/-- The command succeeds in the state `s`: the state before its response, and what its checks have established. -/
inductive Effect (s : State) : Instr → State → Prop
  | nop : Effect s .nop s
  | clrerr : Effect s .clrerr (clearLatch s)
  | csrrd (a : BitVec 8) : Effect s (.csrrd a) s
  | csrwr (c : Csr) (v : BitVec 16) (hw : c.writable = true) : Effect s (.csrwr c.addr v) (writeCsr s c v)
  | setptr (v : BitVec 24) : Effect s (.setptr v) { s with ptr := v }
  | ld (sp : Space) : Effect s (.ld sp) (advancePtr s)
  | st (sp : Space) (v : Byte) (hrw : hostWritable sp = true) (hext : s.ptr.toNat < extent s sp) :
      Effect s (.st sp v) (advancePtr (writeCell s sp s.ptr.toNat v))
  | gfrd (ra : Reg) : Effect s (.gfrd ra) s
  | field {i : Instr} {rd : Reg} (v : Byte) (hw : WritesGpr i rd) : Effect s i (writeReg s rd v)
  | binrun (hl : ¬ TooLarge s) (hb : ¬ BinrunBad s) : Effect s .binrun (setBinok (binarize s) true)
  | gsrun (vs : List Byte) (hvs : vs.length ≤ 31329) : Effect s .gsrun (setGsok (writeFirst s .mm vs) true)
  | gsmap (row col : BitVec 8) {px py : Nat} (hpx : px < 4095) (hpy : py < 4095) :
      Effect s (.gsmap row col) (setMap s px py)
  | rsdecCodeword : Effect s .rsdec (setRsok (storeLocator (storeSyndromes s (blockSyndromes s)) [1] 0) true)
  | rsdecCorrected (hr : RsReady s) (hl : (solved s).l ≤ s.rs.e.toNat / 2)
      (hroots : (rootPositions s).length = (solved s).l) : Effect s .rsdec (setRsok (correctedBlock s) true)

/-- The command faults in the state `s`: the code, and the state in which the fault is raised. -/
inductive FaultEffect (s : State) : Instr → FaultCode → State → Prop
  | plain {i : Instr} {code : FaultCode} (hm : MayRaise i code) (hi : i ≠ .binrun ∧ i ≠ .gsrun ∧ i ≠ .rsdec) :
      FaultEffect s i code s
  | binrun {code : FaultCode} (hm : MayRaise .binrun code) : FaultEffect s .binrun code (setBinok s false)
  | gsrun {code : FaultCode} (hm : MayRaise .gsrun code) : FaultEffect s .gsrun code (setGsok s false)
  | gsrunOut (vs : List Byte) (hvs : vs.length ≤ 31329) {c r : Nat} (hc : c < 177) (hr : r < 177) :
      FaultEffect s .gsrun .sampleOutOfBounds (setGsok (setFail (writeFirst s .mm vs) c r) false)
  | gsmapOut {row col : BitVec 8} (hr : row.toNat < 177) (hc : col.toNat < 177) :
      FaultEffect s (.gsmap row col) .sampleOutOfBounds (setFail s col.toNat row.toNat)
  | rsdecBad : FaultEffect s .rsdec .badParameter (setRsok s false)
  | rsdecUncorrectable (hr : RsReady s) : FaultEffect s .rsdec .blockUncorrectable (setRsok (storeSolution s) false)

/-- The state after a command. While an error is latched a command succeeds only as CLRERR or without an effect. -/
inductive Answer (i : Instr) (s : State) : State → Prop
  | success {u : State} (d : BitVec 24) (he : Effect s i u) (hl : s.err = true → i = .clrerr ∨ u = s) :
      Answer i s (deliver u (responseWord false 0 d))
  | fault {u : State} {code : FaultCode} (hs : s.err = false) (he : FaultEffect s i code u) :
      Answer i s (faulted u code.bits (encode i))
  | refused (hs : s.err = true) : Answer i s (refusedState s)

/-- The result `r` is a next state, and this is an answer of the command. -/
def Answers (i : Instr) (s : State) (r : Result) : Prop := ∃ t, r = .next t ∧ Answer i s t

section Ends
variable {i : Instr} {s u : State}

theorem answers_respond (hs : s.err = false) (he : Effect s i u) (d : BitVec 24) : Answers i s (respond u d) :=
  ⟨_, rfl, .success d he fun h => absurd (hs.symm.trans h) Bool.false_ne_true⟩

theorem answers_raiseFault {code : FaultCode} (hs : s.err = false) (he : FaultEffect s i code u) :
    Answers i s (raiseFault code (encode i) u) :=
  ⟨_, raiseFault_eq_faulted code _ u, .fault hs he⟩

theorem answers_unlessLatched {body : State → Result} (h : s.err = false → Answers i s (body s)) :
    Answers i s (unlessLatched s body) := by
  cases hs : s.err with
  | true =>
    rw [unlessLatched_of_latched hs]
    exact ⟨_, refuse_eq_refusedState s, .refused hs⟩
  | false =>
    rw [unlessLatched_of_clear hs]
    exact h hs

theorem answers_writeAndRespond (hs : s.err = false) {rd : Reg} (hw : WritesGpr i rd) (v : Byte) :
    Answers i s (writeAndRespond s rd v) :=
  answers_respond hs (.field v hw) 0

theorem answers_writeOrGfZero (hs : s.err = false) {rd : Reg} (hw : WritesGpr i rd)
    (hf : FaultEffect s i .gfZero s) (o : Option Byte) : Answers i s (writeOrGfZero s (encode i) rd o) := by
  cases o with
  | some v => exact answers_writeAndRespond hs hw v
  | none => exact answers_raiseFault hs hf

end Ends

/-! ## The commands one by one -/

theorem answers_execCsrrd (a : BitVec 8) (s : State) : Answers (.csrrd a) s (execCsrrd a s) := by
  unfold execCsrrd
  split
  · exact ⟨_, rfl, .success _ (.csrrd a) fun _ => .inr rfl⟩
  · exact answers_unlessLatched fun hs => answers_raiseFault hs (.plain rfl ⟨nofun, nofun, nofun⟩)

theorem answers_execCsrwr (a : BitVec 8) (v : BitVec 16) (s : State) : Answers (.csrwr a v) s (execCsrwr a v s) := by
  refine answers_unlessLatched fun hs => ?_
  have hfault : FaultEffect s (.csrwr a v) .badCsr s := .plain rfl ⟨nofun, nofun, nofun⟩
  split
  next c hc =>
    obtain rfl := ofAddr_eq_some.1 hc
    split
    next hw => exact answers_respond hs (.csrwr c v hw) 0
    next => exact answers_raiseFault hs hfault
  next => exact answers_raiseFault hs hfault

theorem answers_execLd (sp : Space) (s : State) : Answers (.ld sp) s (execLd sp s) := by
  refine answers_unlessLatched fun hs => ?_
  split
  · exact answers_raiseFault hs (.plain rfl ⟨nofun, nofun, nofun⟩)
  · exact answers_respond hs (.ld sp) _

theorem answers_execSt (sp : Space) (v : Byte) (s : State) : Answers (.st sp v) s (execSt sp v s) := by
  refine answers_unlessLatched fun hs => ?_
  have hrange : FaultEffect s (.st sp v) .addressOutOfRange s := .plain (.inl rfl) ⟨nofun, nofun, nofun⟩
  split
  next hwf => exact answers_raiseFault hs (.plain (.inr ⟨rfl, hwf⟩) ⟨nofun, nofun, nofun⟩)
  split
  next => exact answers_raiseFault hs hrange
  split
  next => exact answers_raiseFault hs hrange
  next hrw hext => exact answers_respond hs (.st sp v (by simpa using hrw) (Nat.not_le.1 hext)) 0

theorem answers_execBinrun (s : State) : Answers .binrun s (execBinrun s) := by
  refine answers_unlessLatched fun hs => ?_
  split
  next => exact answers_raiseFault hs (.binrun (.inl rfl))
  split
  next => exact answers_raiseFault hs (.binrun (.inr rfl))
  next hl hb =>
    exact answers_respond hs (.binrun (mt (imageTooLarge_iff s).2 hl) (mt (binBadParameter_iff s).2 hb)) 0

/-! ## The sampler's commands -/

/-- The outcome of the sampler's checks: two codes, or a good image and a matrix of at most 177 by 177. -/
theorem samplerCheck_cases (s : State) :
    (samplerCheck s = some .imageTooLarge ∨ samplerCheck s = some .badParameter) ∨
      samplerCheck s = none ∧ ¬ TooLarge s ∧ ¬ SamplerBad s := by
  by_cases hl : TooLarge s
  · exact .inl (.inl (samplerCheck_of_tooLarge hl))
  by_cases hb : SamplerBad s
  · exact .inl (.inr (samplerCheck_of_bad hl hb))
  · exact .inr ⟨samplerCheck_of_good hl hb, hl, hb⟩

theorem size_le_of_not_samplerBad {s : State} (hb : ¬ SamplerBad s) : s.gs.size.toNat ≤ 177 := by
  rw [SamplerBad] at hb
  omega

theorem length_sampleModules_le (s : State) (m : Mat3) (js : List Nat) :
    (sampleModules s m js).1.length ≤ js.length := by
  induction js with
  | nil => exact le_rfl
  | cons j js ih =>
    rw [sampleModules]
    split
    · exact Nat.zero_le _
    · exact Nat.succ_le_succ ih

theorem mem_of_sampleModules_out {s : State} {m : Mat3} {js : List Nat} {j : Nat}
    (h : (sampleModules s m js).2 = some j) : j ∈ js := by
  induction js with
  | nil => cases h
  | cons k js ih =>
    rw [sampleModules] at h
    split at h
    · cases h
      exact List.mem_cons_self
    · exact List.mem_cons_of_mem k (ih h)

theorem answers_sampleGrid {s : State} (hs : s.err = false) (hb : ¬ SamplerBad s) :
    Answers .gsrun s (sampleGrid s) := by
  have hsize := size_le_of_not_samplerBad hb
  have hlen : (sampleModules s (transform s) (moduleOrder s)).1.length ≤ 31329 :=
    calc _ ≤ (moduleOrder s).length := length_sampleModules_le s _ _
      _ = s.gs.size.toNat * s.gs.size.toNat := List.length_range
      _ ≤ 177 * 177 := Nat.mul_le_mul hsize hsize
  dsimp only [sampleGrid]
  split
  next => exact answers_respond hs (.gsrun _ hlen) 0
  next j hj =>
    have hlt : j < s.gs.size.toNat * s.gs.size.toNat := List.mem_range.1 (mem_of_sampleModules_out hj)
    have hcol : j % s.gs.size.toNat < s.gs.size.toNat := Nat.mod_lt j (Nat.pos_of_mul_pos_right (Nat.zero_lt_of_lt hlt))
    have hrow : j / s.gs.size.toNat < s.gs.size.toNat := Nat.div_lt_of_lt_mul hlt
    exact answers_raiseFault hs (.gsrunOut _ hlen (hcol.trans_le hsize) (hrow.trans_le hsize))

theorem answers_execGsrun (s : State) : Answers .gsrun s (execGsrun s) := by
  refine answers_unlessLatched fun hs => ?_
  obtain (hc | hc) | ⟨hc, -, hb⟩ := samplerCheck_cases s
  · rw [hc]
    exact answers_raiseFault hs (.gsrun (.inl rfl))
  · rw [hc]
    exact answers_raiseFault hs (.gsrun (.inr (.inl rfl)))
  · rw [hc]
    exact answers_sampleGrid hs hb

theorem answers_execGsmap (row col : BitVec 8) (s : State) : Answers (.gsmap row col) s (execGsmap row col s) := by
  refine answers_unlessLatched fun hs => ?_
  have hbad : FaultEffect s (.gsmap row col) .badParameter s := .plain (.inr (.inl rfl)) ⟨nofun, nofun, nofun⟩
  obtain (hc | hc) | ⟨hc, hl, hb⟩ := samplerCheck_cases s
  · rw [hc]
    exact answers_raiseFault hs (.plain (.inl rfl) ⟨nofun, nofun, nofun⟩)
  · rw [hc]
    exact answers_raiseFault hs hbad
  · have hsize := size_le_of_not_samplerBad hb
    rw [hc]
    dsimp only
    split
    next => exact answers_raiseFault hs hbad
    next hin =>
      split
      next => exact answers_raiseFault hs (.gsmapOut (by omega) (by omega))
      next px py hmap =>
        obtain ⟨-, -, -, hpx, hpy⟩ := mapModule_eq_some_iff.1 hmap
        rw [TooLarge] at hl
        exact answers_respond hs (.gsmap row col (by omega) (by omega)) _

/-! ## RSDEC -/

theorem answers_exec_rsdec (s : State) : Answers .rsdec s (exec .rsdec s) := by
  cases hs : s.err with
  | true => exact ⟨_, exec_of_latched hs nofun nofun, .refused hs⟩
  | false =>
    by_cases hr : RsReady s
    case neg =>
      obtain ⟨-, hfault⟩ := rsdecChecksItsParameters
      exact ⟨_, hfault s hs hr, .fault hs .rsdecBad⟩
    by_cases hc : IsCodeword (readCell s .cw) (blockLength s) s.rs.e.toNat
    · rw [exec_rsdec_of_codeword hs hr hc]
      exact answers_respond hs .rsdecCodeword 0
    by_cases hfail : s.rs.e.toNat / 2 < (solved s).l ∨ (rootPositions s).length ≠ (solved s).l
    · rw [exec_rsdec_of_uncorrectable hs hr hc hfail]
      exact answers_raiseFault hs (.rsdecUncorrectable hr)
    · obtain ⟨hl, hroots⟩ := not_or.1 hfail
      rw [exec_rsdec_of_all_roots hs hr hc (Nat.not_lt.1 hl) (not_not.1 hroots)]
      exact answers_respond hs (.rsdecCorrected hr (Nat.not_lt.1 hl) (not_not.1 hroots)) 0

/-! ## Every command -/

/-- Every command answers in every state. -/
theorem answers_exec (i : Instr) (s : State) : Answers i s (exec i s) := by
  unfold exec
  cases i with
  | nop => exact answers_unlessLatched fun hs => answers_respond hs .nop 0
  | clrerr => exact ⟨_, rfl, .success 0 .clrerr fun _ => .inl rfl⟩
  | csrrd a => exact answers_execCsrrd a s
  | csrwr a v => exact answers_execCsrwr a v s
  | setptr v => exact answers_unlessLatched fun hs => answers_respond hs (.setptr v) 0
  | ld sp => exact answers_execLd sp s
  | st sp v => exact answers_execSt sp v s
  | gfrd ra => exact answers_unlessLatched fun hs => answers_respond hs (.gfrd ra) _
  | gfli rd v => exact answers_unlessLatched fun hs => answers_writeAndRespond hs (.inl ⟨v, rfl⟩) v
  | gfmv rd ra =>
    exact answers_unlessLatched fun hs => answers_writeAndRespond hs (.inr (.inl ⟨ra, .inl rfl⟩)) _
  | gfexp rd ra =>
    exact answers_unlessLatched fun hs =>
      answers_writeAndRespond hs (.inr (.inl ⟨ra, .inr (.inr (.inl rfl))⟩)) _
  | gfadd rd ra rb =>
    exact answers_unlessLatched fun hs => answers_writeAndRespond hs (.inr (.inr ⟨ra, rb, .inl rfl⟩)) _
  | gfmul rd ra rb =>
    exact answers_unlessLatched fun hs => answers_writeAndRespond hs (.inr (.inr ⟨ra, rb, .inr (.inl rfl)⟩)) _
  | gfdiv rd ra rb =>
    exact answers_unlessLatched fun hs =>
      answers_writeOrGfZero hs (.inr (.inr ⟨ra, rb, .inr (.inr rfl)⟩)) (.plain rfl ⟨nofun, nofun, nofun⟩) _
  | gfinv rd ra =>
    exact answers_unlessLatched fun hs =>
      answers_writeOrGfZero hs (.inr (.inl ⟨ra, .inr (.inl rfl)⟩)) (.plain rfl ⟨nofun, nofun, nofun⟩) _
  | gflog rd ra =>
    exact answers_unlessLatched fun hs =>
      answers_writeOrGfZero hs (.inr (.inl ⟨ra, .inr (.inr (.inr rfl))⟩)) (.plain rfl ⟨nofun, nofun, nofun⟩) _
  | binrun => exact answers_execBinrun s
  | gsrun => exact answers_execGsrun s
  | gsmap row col => exact answers_execGsmap row col s
  | rsdec => exact answers_exec_rsdec s

theorem answer_of_exec {i : Instr} {s t : State} (h : exec i s = .next t) : Answer i s t := by
  obtain ⟨u, hu, ha⟩ := answers_exec i s
  cases h.symm.trans hu
  exact ha

end Sys2Proof.Machine
end

section
/-! PROOFS. What holds of every command and of every step: the port, the responses and MAXPIX (30_encoding.md R93), and
the invariant. -/

-- One declaration at a time: the stacks of parallel elaboration can exceed the memory that the check allows.
set_option Elab.async false

namespace Sys2Proof.Machine

/-! ## Steps -/

/-- The state after a step. -/
inductive StepAnswer (s : State) : State → Prop
  | idle (hp : s.portIn = []) : StepAnswer s s
  | reset {a : HostAction} {rest : List HostAction} (hp : s.portIn = a :: rest) (ha : ∀ w, a ≠ .command w) :
      StepAnswer s (hardwareReset a { s with portIn := rest })
  | command {w : Word32} {rest : List HostAction} {i : Instr} {t : State} (hp : s.portIn = .command w :: rest)
      (hd : decode w = .ok i) (h : Answer i { s with portIn := rest } t) : StepAnswer s t
  | illegal {w : Word32} {rest : List HostAction} (hp : s.portIn = .command w :: rest) (hs : s.err = false) :
      StepAnswer s (faulted { s with portIn := rest } FaultCode.illegalCommand.bits w)
  | illegalRefused {w : Word32} {rest : List HostAction} (hp : s.portIn = .command w :: rest) (hs : s.err = true) :
      StepAnswer s (refusedState { s with portIn := rest })

theorem step_of_idle {s : State} (hp : s.portIn = []) : step s = .next s := by
  simp [step, takeAction, hp]

theorem step_of_not_command {s : State} {a : HostAction} {rest : List HostAction} (hp : s.portIn = a :: rest)
    (ha : ∀ w, a ≠ .command w) : step s = .next (hardwareReset a { s with portIn := rest }) := by
  cases a with
  | command w => exact absurd rfl (ha w)
  | reset => simp [step, takeAction, hp]
  | resetInFlight w => simp [step, takeAction, hp]

theorem exists_step (s : State) : ∃ t, step s = .next t ∧ StepAnswer s t := by
  cases hp : s.portIn with
  | nil => exact ⟨s, step_of_idle hp, .idle hp⟩
  | cons a rest =>
    by_cases ha : ∀ w, a ≠ .command w
    · exact ⟨_, step_of_not_command hp ha, .reset hp ha⟩
    · simp only [not_forall, not_not] at ha
      obtain ⟨w, rfl⟩ := ha
      cases hd : decode w with
      | ok i =>
        obtain ⟨t, ht, h⟩ := answers_exec i { s with portIn := rest }
        exact ⟨t, (step_of_decode_ok hp hd).trans ht, .command hp hd h⟩
      | error e =>
        rw [step_of_decode_error hp hd]
        rcases Bool.eq_false_or_eq_true s.err with hs | hs
        · exact ⟨_, illegalWord_of_latched (s := { s with portIn := rest }) hs w, .illegalRefused hp hs⟩
        · refine ⟨_, ?_, .illegal hp hs⟩
          rw [illegalWord, unlessLatched_of_clear (by exact hs), raiseFault_eq_faulted]

theorem stepAnswer_of_step {s t : State} (h : step s = .next t) : StepAnswer s t := by
  obtain ⟨u, hu, ha⟩ := exists_step s
  cases h.symm.trans hu
  exact ha

/-- Settles O6. -/
theorem stepRunsTheDecodedCommand : Obligations.StepRunsTheDecodedCommand := by
  unfold Obligations.StepRunsTheDecodedCommand
  refine ⟨fun s w rest i => step_of_decode_ok, fun s w i hd => ?_⟩
  have hword : tableWord 32 w.toNat = w := by
    rw [tableWord, Nat.mod_eq_of_lt w.isLt, BitVec.ofNat_toNat, BitVec.setWidth_eq]
  exact step_of_decode_ok (s := s.withFetchWord 32 w.toNat) (rest := s.portIn) (by rw [State.withFetchWord, hword]) hd

/-- Settles O14: both actions of the host that are no command end in `hardwareReset`. -/
theorem hostResetRestoresTheRegisters : Obligations.HostResetRestoresTheRegisters := by
  unfold Obligations.HostResetRestoresTheRegisters
  exact fun s a rest hp ha => ⟨_, step_of_not_command hp ha, rfl, rfl, readCell_hardwareReset a _⟩

/-! ## The port, the responses and MAXPIX -/

/-- What a command leaves to the host: MAXPIX, the unspecified contents, the coming actions and the responses. -/
structure SameHost (s u : State) : Prop where
  maxPixLess1 : u.maxPixLess1 = s.maxPixLess1
  fill : u.fill = s.fill
  portIn : u.portIn = s.portIn
  rspOut : u.rspOut = s.rspOut

theorem Effect.sameHost {i : Instr} {s u : State} (h : Effect s i u) : SameHost s u := by
  cases h with
  | csrwr c v =>
    rw [writeCsr_frame]
    exact ⟨rfl, rfl, rfl, rfl⟩
  | binrun => exact ⟨binarize_maxPixLess1 s, binarize_fill s, binarize_portIn s, binarize_rspOut s⟩
  | rsdecCodeword =>
    obtain ⟨m, hm⟩ := storeLocator_storeSyndromes_frame s (blockSyndromes s) [1] 0
    rw [hm]
    exact ⟨rfl, rfl, rfl, rfl⟩
  | rsdecCorrected _ _ hroots =>
    obtain ⟨m, hm⟩ := correctedBlock_frame s hroots
    rw [hm]
    exact ⟨rfl, rfl, rfl, rfl⟩
  | _ => exact ⟨rfl, rfl, rfl, rfl⟩

theorem storeSolution_frame (s : State) :
    ∃ m, storeSolution s = { s with mem := m, rs := { s.rs with l := BitVec.ofNat 8 (solved s).l, nerr := 0 } } :=
  storeLocator_storeSyndromes_frame s (blockSyndromes s) (solved s).c (solved s).l

theorem FaultEffect.sameHost {i : Instr} {code : FaultCode} {s u : State} (h : FaultEffect s i code u) :
    SameHost s u := by
  cases h with
  | rsdecUncorrectable =>
    obtain ⟨m, hm⟩ := storeSolution_frame s
    rw [hm]
    exact ⟨rfl, rfl, rfl, rfl⟩
  | _ => exact ⟨rfl, rfl, rfl, rfl⟩

/-- A command is answered with one response and leaves the port and MAXPIX. -/
theorem Answer.delivers {i : Instr} {s t : State} (h : Answer i s t) :
    t.maxPixLess1 = s.maxPixLess1 ∧ t.portIn = s.portIn ∧ ∃ r, t.rspOut = s.rspOut ++ [r] := by
  cases h with
  | success d he => exact ⟨he.sameHost.maxPixLess1, he.sameHost.portIn, _, congrArg (· ++ _) he.sameHost.rspOut⟩
  | fault _ he => exact ⟨he.sameHost.maxPixLess1, he.sameHost.portIn, _, congrArg (· ++ _) he.sameHost.rspOut⟩
  | refused => exact ⟨rfl, rfl, _, rfl⟩

/-- Settles O8. -/
theorem everyStepAnswersOnce : Obligations.EveryStepAnswersOnce := by
  unfold Obligations.EveryStepAnswersOnce
  intro s
  obtain ⟨t, ht, h⟩ := exists_step s
  refine ⟨t, ht, ?_⟩
  cases h with
  | idle hp => simp [hp]
  | reset hp ha =>
    rw [hp]
    refine ⟨nofun, fun w rest' heq => ?_, fun a' rest' heq _ => ?_⟩
    · cases heq
      exact absurd rfl (ha w)
    · cases heq
      exact ⟨rfl, rfl⟩
  | command hp hd h =>
    obtain ⟨-, hport, hresp⟩ := h.delivers
    rw [hp]
    refine ⟨nofun, fun w rest' heq => ?_, fun a' rest' heq ha => ?_⟩
    · cases heq
      exact ⟨hport, hresp⟩
    · cases heq
      exact absurd rfl (ha _)
  | illegal hp | illegalRefused hp =>
    rw [hp]
    refine ⟨nofun, fun w rest' heq => ?_, fun a' rest' heq ha => ?_⟩
    · cases heq
      exact ⟨rfl, _, rfl⟩
    · cases heq
      exact absurd rfl (ha _)

theorem step_maxPixLess1 {s t : State} (h : step s = .next t) : t.maxPixLess1 = s.maxPixLess1 := by
  cases stepAnswer_of_step h with
  | command _ _ h => exact h.delivers.1
  | _ => rfl

/-- Settles O12: MAXPIX has 23 bits, of which one register reads the lower 16 and the other the rest. -/
theorem constantsReadTheSame : Obligations.ConstantsReadTheSame := by
  unfold Obligations.ConstantsReadTheSame
  intro s
  have hfield := s.maxPixLess1.isLt
  have hmax : (maxPixBits s).toNat = maxPix s := by
    rw [maxPixBits, BitVec.toNat_ofNat]
    exact Nat.mod_eq_of_lt (by rw [maxPix]; omega)
  have hbound : maxPix s ≤ 4194304 := by rw [maxPix]; omega
  refine ⟨rfl, ?_, ?_, Nat.succ_pos _, hbound, fun t ht => by rw [maxPix, step_maxPixLess1 ht, maxPix]⟩
  · simp only [csrValue, BitVec.toNat_setWidth, BitVec.extractLsb'_toNat, hmax, Nat.shiftRight_zero]
    omega
  · simp only [csrValue, BitVec.toNat_setWidth, BitVec.extractLsb'_toNat, hmax, Nat.shiftRight_eq_div_pow]
    omega

/-! ## The response (30_encoding.md R93) -/

/-- The last response after the word `w` tells how it ended. -/
def TellsOutcome (w : Word32) (s t : State) : Prop :=
  ∃ r, t.rspOut = s.rspOut ++ [r] ∧
    (r.msb = false → r.toNat < 0x1000000 ∧ (s.err = false → t.err = false)) ∧
    (r.msb = true →
      (s.err = true ∧ r = 0xFF000000 ∧ t = refusedState s) ∨
      (s.err = false ∧ t.err = true ∧ t.errcmd = w ∧
        r = BitVec.ofNat 32 (0x80000000 + t.errcode.toNat * 0x1000000)))

theorem tellsOutcome_refusedState (w : Word32) {s : State} (hs : s.err = true) : TellsOutcome w s (refusedState s) :=
  ⟨0xFF000000, rfl, nofun, fun _ => .inl ⟨hs, rfl, rfl⟩⟩

theorem msb_faultWord (code : FaultCode) :
    (BitVec.ofNat 32 (0x80000000 + code.bits.toNat * 0x1000000)).msb = true := by
  cases code <;> rfl

theorem tellsOutcome_faulted (w : Word32) {s u : State} (hs : s.err = false) (hu : u.rspOut = s.rspOut)
    (code : FaultCode) : TellsOutcome w s (faulted u code.bits w) := by
  refine ⟨_, congrArg (· ++ _) hu, fun hmsb => ?_, fun _ => .inr ⟨hs, rfl, rfl, rfl⟩⟩
  cases (msb_faultWord code).symm.trans hmsb

theorem tellsOutcome_success (w : Word32) {s u : State} (hu : u.rspOut = s.rspOut)
    (herr : s.err = false → u.err = false) (d : BitVec 24) :
    TellsOutcome w s (deliver u (responseWord false 0 d)) := by
  have hd : (responseWord false 0 d).toNat = d.toNat := by
    rw [responseWord_success]
    exact BitVec.toNat_setWidth_of_le (by decide)
  have hlt := d.isLt
  refine ⟨_, congrArg (· ++ _) hu, fun _ => ⟨by omega, herr⟩, fun hmsb => ?_⟩
  rw [BitVec.msb_eq_decide, decide_eq_true_iff] at hmsb
  omega

/-- A command that succeeds leaves the latch, but for CLRERR. -/
theorem Effect.latch {i : Instr} {s u : State} (h : Effect s i u) : SameLatch s u ∨ u = clearLatch s := by
  cases h with
  | clrerr => exact .inr rfl
  | csrwr c v => exact .inl (sameLatch_writeCsr s c v)
  | binrun => exact .inl ⟨binarize_err s, binarize_errcode s, binarize_errcmd s⟩
  | rsdecCodeword =>
    obtain ⟨m, hm⟩ := storeLocator_storeSyndromes_frame s (blockSyndromes s) [1] 0
    rw [hm]
    exact .inl ⟨rfl, rfl, rfl⟩
  | rsdecCorrected _ _ hroots =>
    obtain ⟨m, hm⟩ := correctedBlock_frame s hroots
    rw [hm]
    exact .inl ⟨rfl, rfl, rfl⟩
  | _ => exact .inl ⟨rfl, rfl, rfl⟩

theorem Effect.err_of_clear {i : Instr} {s u : State} (h : Effect s i u) (hs : s.err = false) : u.err = false := by
  obtain ⟨herr, -⟩ | rfl := h.latch
  · exact herr.trans hs
  · rfl

theorem Answer.tellsOutcome {i : Instr} {s t : State} (h : Answer i s t) : TellsOutcome (encode i) s t := by
  cases h with
  | success d he => exact tellsOutcome_success _ he.sameHost.rspOut he.err_of_clear d
  | fault hs he => exact tellsOutcome_faulted _ hs he.sameHost.rspOut _
  | refused hs => exact tellsOutcome_refusedState _ hs

/-- Settles O9: each end of a command has its kind of response, and a decoded word is the encoding of its command. -/
theorem responseTellsTheOutcome : Obligations.ResponseTellsTheOutcome := by
  unfold Obligations.ResponseTellsTheOutcome
  intro s t w rest hp h
  cases stepAnswer_of_step h with
  | idle hp' => cases hp.symm.trans hp'
  | reset hp' ha =>
    cases hp.symm.trans hp'
    exact absurd rfl (ha w)
  | command hp' hd h =>
    cases hp.symm.trans hp'
    obtain ⟨-, henc⟩ := legalWordIsTheWordOfItsCommand w _ hd
    exact henc ▸ h.tellsOutcome
  | illegal hp' hs =>
    cases hp.symm.trans hp'
    exact tellsOutcome_faulted w (s := { s with portIn := rest }) hs rfl .illegalCommand
  | illegalRefused hp' hs =>
    cases hp.symm.trans hp'
    exact tellsOutcome_refusedState w (s := { s with portIn := rest }) hs

/-! ## The invariant: the memory stays canonical (20_memory.md R66) -/

@[simp] theorem memoryWf_setBinok (s : State) (b : Bool) : memoryWf (setBinok s b) = memoryWf s :=
  memoryWf_congr rfl rfl

@[simp] theorem memoryWf_setGsok (s : State) (b : Bool) : memoryWf (setGsok s b) = memoryWf s := memoryWf_congr rfl rfl

@[simp] theorem memoryWf_setRsok (s : State) (b : Bool) : memoryWf (setRsok s b) = memoryWf s := memoryWf_congr rfl rfl

@[simp] theorem memoryWf_setFail (s : State) (c r : Nat) : memoryWf (setFail s c r) = memoryWf s :=
  memoryWf_congr rfl rfl

section Canonical
variable {s : State} (h : memoryWf s = true)
include h

theorem memoryWf_binarize (hl : ¬ TooLarge s) : memoryWf (binarize s) = true := by
  rw [TooLarge] at hl
  have hbm : ((pixels s).map (pixelBit s (thresholds s))).length ≤ extent s .bm := by
    rw [List.length_map, pixels, List.length_range, extent]
    omega
  exact memoryWf_writeFirst (memoryWf_writeFirst h hbm) (by rw [List.length_map, List.length_range]; exact le_rfl)

theorem memoryWf_writeFirst_padZero {sp : Space} {count : Nat} (hcount : count ≤ extent s sp) (vs : List Byte) :
    memoryWf (writeFirst s sp (padZero vs count)) = true :=
  memoryWf_writeFirst h (by rwa [padZero, List.length_map, List.length_range])

theorem memoryWf_storeSyndromes (syn : List Byte) : memoryWf (storeSyndromes s syn) = true :=
  memoryWf_writeFirst_padZero
    (memoryWf_writeFirst_padZero (memoryWf_writeFirst_padZero h (sp := .syn) le_rfl syn) (sp := .epos) le_rfl [])
    (sp := .emag) le_rfl []

theorem memoryWf_storeLocator (c : List Byte) (l : Nat) : memoryWf (storeLocator s c l) = true :=
  memoryWf_writeFirst_padZero h (sp := .lam) le_rfl c

theorem memoryWf_storeCorrections (fixes : List (Nat × Byte)) : memoryWf (storeCorrections s fixes) = true :=
  memoryWf_writeFirst_padZero (memoryWf_writeFirst_padZero h (sp := .epos) le_rfl _) (sp := .emag) le_rfl _

theorem memoryWf_correctedBlock (hr : RsReady s) : memoryWf (correctedBlock s) = true := by
  have hsol : memoryWf (storeSolution s) = true := memoryWf_storeLocator (memoryWf_storeSyndromes h _) _ _
  refine memoryWf_storeCorrections (memoryWf_correctCells hsol ?_) _
  intro f hf
  obtain ⟨p, hp, rfl⟩ := List.mem_map.1 hf
  have hlt := lt_blockLength_of_mem_rootPositions s hp
  have hn := blockLength_le_of_ready hr
  dsimp only
  omega

theorem memoryWf_writeFirst_mm {vs : List Byte} (hvs : vs.length ≤ 31329) : memoryWf (writeFirst s .mm vs) = true :=
  memoryWf_writeFirst h (by rwa [extent])

theorem Effect.canonical {i : Instr} {u : State} (he : Effect s i u) : memoryWf u = true := by
  cases he with
  | csrwr c v =>
    rw [writeCsr_frame]
    exact h
  | st sp v _ hext => exact memoryWf_writeCell h hext v
  | binrun hl =>
    rw [memoryWf_setBinok]
    exact memoryWf_binarize h hl
  | gsrun vs hvs => 
    rw [memoryWf_setGsok]
    exact memoryWf_writeFirst_mm h hvs
  | rsdecCodeword =>
    rw [memoryWf_setRsok]
    exact memoryWf_storeLocator (memoryWf_storeSyndromes h _) _ _
  | rsdecCorrected hr =>
    rw [memoryWf_setRsok]
    exact memoryWf_correctedBlock h hr
  | _ => exact h

theorem FaultEffect.canonical {i : Instr} {code : FaultCode} {u : State} (he : FaultEffect s i code u) :
    memoryWf u = true := by
  cases he with
  | gsrunOut vs hvs => 
    rw [memoryWf_setGsok, memoryWf_setFail]
    exact memoryWf_writeFirst_mm h hvs
  | rsdecUncorrectable =>
    rw [memoryWf_setRsok]
    exact memoryWf_storeLocator (memoryWf_storeSyndromes h _) _ _
  | _ => exact h

end Canonical

/-! ## The invariant: the result registers (10_state.md R38, R39, R41) -/

theorem solved_l_le_254 {s : State} (hr : RsReady s) : (solved s).l ≤ 254 := by
  have hl := (solverInv_solved s).length_le
  obtain ⟨hk, -, hn⟩ := hr
  omega

section Results
variable {s : State} (h : ResultsWf s)
include h

theorem resultsWf_of_same {u : State} (hgs : u.gs = s.gs) (hrs : u.rs = s.rs) : ResultsWf u := by
  rwa [ResultsWf, hgs, hrs]

theorem resultsWf_setMap {px py : Nat} (hpx : px < 4095) (hpy : py < 4095) : ResultsWf (setMap s px py) := by
  obtain ⟨-, -, hfail⟩ := h
  refine ⟨?_, ?_, hfail⟩
  · exact (Nat.mod_le _ _).trans_lt hpx
  · exact (Nat.mod_le _ _).trans_lt hpy

theorem resultsWf_setFail {c r : Nat} (hc : c < 177) (hr : r < 177) : ResultsWf (setFail s c r) := by
  obtain ⟨hx, hy, -, -, hrs⟩ := h
  exact ⟨hx, hy, (Nat.mod_le _ _).trans_lt hc, (Nat.mod_le _ _).trans_lt hr, hrs⟩

theorem resultsWf_writeCsr (c : Csr) (v : BitVec 16) : ResultsWf (writeCsr s c v) := by
  cases c <;> exact h

/-- The decoder's result registers after a block with the length `l` and no more than `l` corrections. -/
theorem resultsWf_of_rs {u : State} {k e : BitVec 16} {l nerr : Nat} (hgs : u.gs = s.gs)
    (hrs : u.rs = ⟨k, e, BitVec.ofNat 8 l, BitVec.ofNat 7 nerr⟩) (hl : l ≤ 254) (hnerr : nerr ≤ l) : ResultsWf u := by
  obtain ⟨hx, hy, hc, hr, -⟩ := h
  rw [ResultsWf, hgs, hrs]
  refine ⟨hx, hy, hc, hr, ?_, ?_⟩
  · rw [BitVec.toNat_ofNat, BitVec.toNat_ofNat, Nat.mod_eq_of_lt (a := l) (by omega)]
    exact (Nat.mod_le _ _).trans hnerr
  · exact (Nat.mod_le _ _).trans hl

theorem Effect.resultsWf {i : Instr} {u : State} (he : Effect s i u) : ResultsWf u := by
  cases he with
  | csrwr c v => exact resultsWf_writeCsr h c v
  | binrun => exact resultsWf_of_same h (binarize_gs s) (binarize_rs s)
  | gsmap _ _ hpx hpy => exact resultsWf_setMap h hpx hpy
  | rsdecCodeword =>
    obtain ⟨m, hm⟩ := storeLocator_storeSyndromes_frame s (blockSyndromes s) [1] 0
    rw [hm]
    exact resultsWf_of_rs h (l := 0) (nerr := 0) rfl rfl (Nat.zero_le _) le_rfl
  | rsdecCorrected hr _ hroots =>
    obtain ⟨m, hm⟩ := correctedBlock_frame s hroots
    rw [hm]
    exact resultsWf_of_rs h rfl rfl (solved_l_le_254 hr) le_rfl
  | _ => exact h

theorem FaultEffect.resultsWf {i : Instr} {code : FaultCode} {u : State} (he : FaultEffect s i code u) :
    ResultsWf u := by
  cases he with
  | gsrunOut vs _ hc hr => exact resultsWf_setFail (s := writeFirst s .mm vs) h hc hr
  | gsmapOut hr hc => exact resultsWf_setFail h hc hr
  | rsdecUncorrectable hr =>
    obtain ⟨m, hm⟩ := storeSolution_frame s
    rw [hm]
    exact resultsWf_of_rs h (nerr := 0) rfl rfl (solved_l_le_254 hr) (Nat.zero_le _)
  | _ => exact h

end Results

/-! ## The invariant: the latch, and every step -/

theorem LatchWf.of_sameLatch {s u : State} (h : LatchWf s) (hs : SameLatch s u) : LatchWf u := by
  obtain ⟨herr, hcode, hcmd⟩ := hs
  rwa [LatchWf, herr, hcode, hcmd]

theorem latchWf_clearLatch (s : State) : LatchWf (clearLatch s) := ⟨fun _ => ⟨rfl, rfl⟩, nofun⟩

theorem latchWf_faulted (s : State) (code : FaultCode) (cmd : Word32) : LatchWf (faulted s code.bits cmd) :=
  ⟨nofun, fun _ => ⟨code, rfl⟩⟩

theorem Effect.latchWf {i : Instr} {s u : State} (he : Effect s i u) (h : LatchWf s) : LatchWf u := by
  obtain hs | rfl := he.latch
  · exact h.of_sameLatch hs
  · exact latchWf_clearLatch s

theorem Answer.inv {i : Instr} {s t : State} (ha : Answer i s t) (h : Inv s) : Inv t := by
  cases ha with
  | success d he => exact ⟨he.canonical h.canonical, he.latchWf h.latch, he.resultsWf h.results⟩
  | fault _ he => exact ⟨he.canonical h.canonical, latchWf_faulted _ _ _, he.resultsWf h.results⟩
  | refused => exact ⟨h.canonical, h.latch, h.results⟩

theorem inv_reset : Inv State.reset where
  canonical := memoryWf_reset
  latch := ⟨fun _ => ⟨rfl, rfl⟩, nofun⟩
  results := by
    unfold ResultsWf
    decide

/-- The invariant does not look at MAXPIX, the unspecified contents or the port while no cell is written. -/
theorem inv_hardwareReset (a : HostAction) (s : State) : Inv (hardwareReset a s) :=
  ⟨memoryWf_hardwareReset a s, inv_reset.latch, inv_reset.results⟩

/-- Settles O11. -/
theorem resetHasTheInvariant : Obligations.ResetHasTheInvariant := by
  unfold Obligations.ResetHasTheInvariant
  exact inv_reset

/-- Settles O10: every end of a command keeps the three parts of the invariant, and a reset establishes them. -/
theorem stepKeepsTheInvariant : Obligations.StepKeepsTheInvariant := by
  unfold Obligations.StepKeepsTheInvariant
  intro s t h hstep
  have hport (rest : List HostAction) : Inv { s with portIn := rest } := ⟨h.canonical, h.latch, h.results⟩
  cases stepAnswer_of_step hstep with
  | idle => exact h
  | @reset a rest => exact inv_hardwareReset a { s with portIn := rest }
  | @command _ rest _ _ _ _ ha => exact ha.inv (hport rest)
  | illegal => exact ⟨h.canonical, latchWf_faulted _ _ _, h.results⟩
  | illegalRefused => exact ⟨h.canonical, h.latch, h.results⟩

end Sys2Proof.Machine
end

section
/-! PROOFS. The writers of the registers, the cells and the CSRs (10_state.md R22, R29, R33 to R41, R45), and what a
fault leaves unchanged (60_exceptions.md R263, R267). -/

-- One declaration at a time: the stacks of parallel elaboration can exceed the memory that the check allows.
set_option Elab.async false

namespace Sys2Proof.Machine

/-! ## The general registers -/

theorem Effect.writesGpr {i : Instr} {s u : State} {r : Reg} (he : Effect s i u)
    (h : readReg u r ≠ readReg s r) : WritesGpr i r := by
  cases he with
  | @field _ rd v hw =>
    rw [readReg_writeReg, ite_ne_right_iff] at h
    obtain ⟨rfl, -⟩ := h
    exact hw
  | csrwr c v =>
    rw [writeCsr_frame] at h
    exact absurd rfl h
  | binrun => exact absurd (readReg_congr (binarize_gpr s) r) h
  | rsdecCodeword =>
    obtain ⟨m, hm⟩ := storeLocator_storeSyndromes_frame s (blockSyndromes s) [1] 0
    rw [hm] at h
    exact absurd rfl h
  | rsdecCorrected _ _ hroots =>
    obtain ⟨m, hm⟩ := correctedBlock_frame s hroots
    rw [hm] at h
    exact absurd rfl h
  | _ => exact absurd rfl h

/-- Before a fault is raised, a command changes no more than flags, result registers and cells. -/
theorem FaultEffect.frame {i : Instr} {code : FaultCode} {s u : State} (he : FaultEffect s i code u) :
    u = { s with binok := u.binok, gsok := u.gsok, rsok := u.rsok, gs := u.gs, rs := u.rs, mem := u.mem } := by
  cases he with
  | rsdecUncorrectable =>
    obtain ⟨m, hm⟩ := storeSolution_frame s
    rw [hm]
    rfl
  | _ => rfl

/-- Settles O55: no fault writes a register, and of the effects only that of the field commands does. -/
theorem onlyFieldCommandsWriteRegisters : Obligations.OnlyFieldCommandsWriteRegisters := by
  unfold Obligations.OnlyFieldCommandsWriteRegisters
  intro i s t r ht h
  cases answer_of_exec ht with
  | success d he => exact he.writesGpr h
  | fault _ he => exact absurd (readReg_congr (congrArg State.gpr he.frame) r) h
  | refused => exact absurd rfl h

/-! ## The cells -/

@[simp] theorem readCell_setBinok (s : State) (b : Bool) (sp : Space) (k : Nat) :
    readCell (setBinok s b) sp k = readCell s sp k := rfl

@[simp] theorem readCell_setGsok (s : State) (b : Bool) (sp : Space) (k : Nat) :
    readCell (setGsok s b) sp k = readCell s sp k := rfl

@[simp] theorem readCell_setRsok (s : State) (b : Bool) (sp : Space) (k : Nat) :
    readCell (setRsok s b) sp k = readCell s sp k := rfl

@[simp] theorem readCell_setFail (s : State) (c r : Nat) (sp : Space) (k : Nat) :
    readCell (setFail s c r) sp k = readCell s sp k := rfl

theorem sameCellsBut_writeCell (s : State) (sp : Space) (k : Nat) (v : Byte) :
    SameCellsBut sp s (writeCell s sp k v) :=
  fun sp' hsp j => (readCell_writeCell s sp sp' k j v).trans (if_neg fun h => hsp h.1)

theorem sameCellsBut_writeFirst (s : State) (sp : Space) (vs : List Byte) : SameCellsBut sp s (writeFirst s sp vs) :=
  fun sp' hsp j => (readCell_writeFirst s sp sp' vs j).trans (if_neg fun h => hsp h.1)

/-- Storing syndromes and a locator leaves the cells outside the decoder's result spaces. -/
theorem readCell_storeLocator_storeSyndromes_other (s : State) (syn c : List Byte) (l : Nat) {sp : Space}
    (h : sp = .cw ∨ sp = .px ∨ sp = .bm ∨ sp = .mm ∨ sp = .thr) (k : Nat) :
    readCell (storeLocator (storeSyndromes s syn) c l) sp k = readCell s sp k := by
  obtain rfl | rfl | rfl | rfl | rfl := h <;> simp [readCell_storeLocator, readCell_storeSyndromes]

theorem writesSpace_rsdec {sp : Space} (h : ¬ (sp = .px ∨ sp = .bm ∨ sp = .mm ∨ sp = .thr)) :
    WritesSpace .rsdec sp := by
  cases sp with
  | cw => exact .inr rfl
  | syn | lam | epos | emag => rfl
  | px | bm | mm | thr => simp at h

theorem writesSpace_st {sp : Space} (h : hostWritable sp = true) (v : Byte) : WritesSpace (.st sp v) sp := by
  obtain rfl | rfl | rfl := (hostWritable_iff sp).1 h
  · exact .inl ⟨v, rfl⟩
  · exact ⟨v, rfl⟩
  · exact .inl ⟨v, rfl⟩

theorem readCell_correctedBlock_of_not_decoder (s : State) {sp : Space}
    (h : sp = .px ∨ sp = .bm ∨ sp = .mm ∨ sp = .thr) (k : Nat) :
    readCell (correctedBlock s) sp k = readCell s sp k := by
  have hsol : readCell (storeSolution s) sp k = readCell s sp k :=
    readCell_storeLocator_storeSyndromes_other s _ _ _ (.inr h) k
  rw [← hsol]
  obtain rfl | rfl | rfl | rfl := h <;> exact readCell_correctedBlock_other s (by decide) (by decide) (by decide) k

theorem Effect.writesSpace {i : Instr} {s u : State} {sp : Space} {k : Nat} (he : Effect s i u)
    (h : readCell u sp k ≠ readCell s sp k) : WritesSpace i sp := by
  cases he with
  | st sp' v hrw =>
    obtain rfl : sp = sp' := by
      by_contra hsp
      exact h (sameCellsBut_writeCell s sp' _ v sp hsp k)
    exact writesSpace_st hrw v
  | csrwr c v => exact absurd (sameCells_writeCsr s c v sp k) h
  | binrun =>
    rw [readCell_setBinok] at h
    by_cases hbm : sp = .bm
    · exact hbm ▸ .inr rfl
    by_cases hthr : sp = .thr
    · exact hthr ▸ rfl
    · exact absurd (readCell_binarize_other s (fun e => absurd e hbm) (fun e => absurd e hthr)) h
  | gsrun vs =>
    rw [readCell_setGsok] at h
    obtain rfl : sp = .mm := by
      by_contra hsp
      exact h (sameCellsBut_writeFirst s .mm vs sp hsp k)
    rfl
  | rsdecCodeword =>
    rw [readCell_setRsok] at h
    exact writesSpace_rsdec fun hsp => h (readCell_storeLocator_storeSyndromes_other s _ _ _ (.inr hsp) k)
  | rsdecCorrected =>
    rw [readCell_setRsok] at h
    exact writesSpace_rsdec fun hsp => h (readCell_correctedBlock_of_not_decoder s hsp k)
  | _ => exact absurd rfl h

theorem FaultEffect.changedCell {i : Instr} {code : FaultCode} {s u : State} {sp : Space} {k : Nat}
    (he : FaultEffect s i code u) (h : readCell u sp k ≠ readCell s sp k) :
    (sp = .mm ∧ i = .gsrun ∧ code = .sampleOutOfBounds) ∨
      (¬ (sp = .cw ∨ sp = .px ∨ sp = .bm ∨ sp = .mm ∨ sp = .thr) ∧ i = .rsdec ∧ code = .blockUncorrectable) := by
  cases he with
  | gsrunOut vs =>
    rw [readCell_setGsok, readCell_setFail] at h
    obtain rfl : sp = .mm := by
      by_contra hsp
      exact h (sameCellsBut_writeFirst s .mm vs sp hsp k)
    exact .inl ⟨rfl, rfl, rfl⟩
  | rsdecUncorrectable =>
    rw [readCell_setRsok] at h
    exact .inr ⟨fun hsp => h (readCell_storeLocator_storeSyndromes_other s _ _ _ hsp k), rfl, rfl⟩
  | _ => exact absurd rfl h

/-- Settles O56. -/
theorem eachSpaceHasItsWriters : Obligations.EachSpaceHasItsWriters := by
  unfold Obligations.EachSpaceHasItsWriters
  intro i s t sp k ht h
  cases answer_of_exec ht with
  | success d he => exact he.writesSpace h
  | refused => exact absurd rfl h
  | fault _ he =>
    obtain ⟨rfl, rfl, -⟩ | ⟨hsp, rfl, -⟩ := he.changedCell h
    · rfl
    · exact writesSpace_rsdec fun hsp' => hsp (.inr hsp')

/-! ## The CSRs -/

/-- The registers that show the latch. -/
def ReadsLatch : Csr → Prop
  | .status | .errcode | .errcmdLo | .errcmdHi => True
  | _ => False

theorem writesCsr_of_readsLatch {i : Instr} {c : Csr} (hi : WritesLatch i) (hc : ReadsLatch c) : WritesCsr i c := by
  cases c with
  | status => exact .inl hi
  | errcode | errcmdLo | errcmdHi => exact hi
  | _ => exact hc.elim

theorem csrValue_faulted (s : State) (code : BitVec 7) (cmd : Word32) {c : Csr} (hc : ¬ ReadsLatch c) :
    csrValue (faulted s code cmd) c = csrValue s c := by
  cases c with
  | status | errcode | errcmdLo | errcmdHi => exact absurd trivial hc
  | _ => rfl

theorem csrValue_clearLatch (s : State) {c : Csr} (hc : ¬ ReadsLatch c) :
    csrValue (clearLatch s) c = csrValue s c := by
  cases c with
  | status | errcode | errcmdLo | errcmdHi => exact absurd trivial hc
  | _ => rfl

theorem writesCsr_csrwr {c : Csr} (hw : c.writable = true) (v : BitVec 16) : WritesCsr (.csrwr c.addr v) c := by
  cases c with
  | id | status | errcode | errcmdLo | errcmdHi | ptr | maxpixLo | maxpixHi => cases hw
  | gsMapx | gsMapy | gsFailc | gsFailr | rsL | rsNerr => cases hw
  | _ => exact ⟨v, rfl⟩

section Csrs
variable {s : State} {c : Csr}

theorem eq_ptr_of_csrValue_ne {v : BitVec 24} (h : csrValue { s with ptr := v } c ≠ csrValue s c) : c = .ptr := by
  cases c with
  | ptr => rfl
  | _ => exact absurd rfl h

theorem eq_status_of_csrValue_setBinok_ne {b : Bool} (h : csrValue (setBinok s b) c ≠ csrValue s c) : c = .status := by
  cases c with
  | status => rfl
  | _ => exact absurd rfl h

theorem eq_status_of_csrValue_setGsok_ne {b : Bool} (h : csrValue (setGsok s b) c ≠ csrValue s c) : c = .status := by
  cases c with
  | status => rfl
  | _ => exact absurd rfl h

theorem eq_status_of_csrValue_setRsok_ne {b : Bool} (h : csrValue (setRsok s b) c ≠ csrValue s c) : c = .status := by
  cases c with
  | status => rfl
  | _ => exact absurd rfl h

theorem eq_map_of_csrValue_setMap_ne {px py : Nat} (h : csrValue (setMap s px py) c ≠ csrValue s c) :
    c = .gsMapx ∨ c = .gsMapy := by
  cases c with
  | gsMapx => exact .inl rfl
  | gsMapy => exact .inr rfl
  | _ => exact absurd rfl h

theorem eq_fail_of_csrValue_setFail_ne {x y : Nat} (h : csrValue (setFail s x y) c ≠ csrValue s c) :
    c = .gsFailc ∨ c = .gsFailr := by
  cases c with
  | gsFailc => exact .inl rfl
  | gsFailr => exact .inr rfl
  | _ => exact absurd rfl h

/-- Only three registers show the result of RSDEC, one of them its flag. -/
theorem writesCsr_rsdec_of_csrValue_ne {u : State} {m : Memory} {l : BitVec 8} {nerr : BitVec 7} {b : Bool}
    (hu : u = { s with mem := m, rs := { s.rs with l := l, nerr := nerr } })
    (h : csrValue (setRsok u b) c ≠ csrValue s c) : WritesCsr .rsdec c := by
  subst hu
  cases c with
  | rsL | rsNerr => rfl
  | status => exact .inr (.inr (.inr rfl))
  | _ => exact absurd rfl h

/-- No register shows a cell. -/
theorem csrValue_writeCell (sp : Space) (k : Nat) (v : Byte) : csrValue (writeCell s sp k v) c = csrValue s c := by
  cases c <;> rfl

theorem csrValue_writeFirst (sp : Space) (vs : List Byte) : csrValue (writeFirst s sp vs) c = csrValue s c := by
  cases c <;> rfl

theorem csrValue_binarize : csrValue (binarize s) c = csrValue s c := by
  rw [binarize, csrValue_writeFirst, csrValue_writeFirst]

theorem csrValue_writeReg (r : Reg) (v : Byte) : csrValue (writeReg s r v) c = csrValue s c := by
  cases c <;> rfl

theorem Effect.writesCsr {i : Instr} {u : State} (he : Effect s i u) (h : csrValue u c ≠ csrValue s c) :
    WritesCsr i c := by
  cases he with
  | nop | csrrd | gfrd => exact absurd rfl h
  | field => exact absurd (csrValue_writeReg _ _) h
  | clrerr => exact writesCsr_of_readsLatch (.inl rfl) (not_not.1 fun hc => h (csrValue_clearLatch s hc))
  | csrwr c' v hw =>
    obtain rfl : c = c' := not_not.1 fun hc => h (csrValue_writeCsr_other s c' c v hc)
    exact writesCsr_csrwr hw v
  | setptr v =>
    obtain rfl := eq_ptr_of_csrValue_ne h
    exact .inl ⟨v, rfl⟩
  | ld sp =>
    obtain rfl := eq_ptr_of_csrValue_ne h
    exact .inr (.inl ⟨sp, rfl⟩)
  | st sp v =>
    rw [← csrValue_writeCell (s := s) sp s.ptr.toNat v] at h
    obtain rfl := eq_ptr_of_csrValue_ne h
    exact .inr (.inr ⟨sp, v, rfl⟩)
  | binrun =>
    rw [← csrValue_binarize (s := s)] at h
    obtain rfl := eq_status_of_csrValue_setBinok_ne h
    exact .inr (.inl rfl)
  | gsrun vs =>
    rw [← csrValue_writeFirst (s := s) .mm vs] at h
    obtain rfl := eq_status_of_csrValue_setGsok_ne h
    exact .inr (.inr (.inl rfl))
  | gsmap row col =>
    obtain rfl | rfl := eq_map_of_csrValue_setMap_ne h <;> exact ⟨row, col, rfl⟩
  | rsdecCodeword =>
    obtain ⟨m, hm⟩ := storeLocator_storeSyndromes_frame s (blockSyndromes s) [1] 0
    exact writesCsr_rsdec_of_csrValue_ne hm h
  | rsdecCorrected _ _ hroots =>
    obtain ⟨m, hm⟩ := correctedBlock_frame s hroots
    exact writesCsr_rsdec_of_csrValue_ne hm h

theorem FaultEffect.mayRaise {i : Instr} {code : FaultCode} {u : State} (he : FaultEffect s i code u) :
    MayRaise i code := by
  cases he with
  | plain hm | binrun hm | gsrun hm => exact hm
  | gsrunOut | gsmapOut => exact .inr (.inr rfl)
  | rsdecBad => exact .inl rfl
  | rsdecUncorrectable => exact .inr rfl

theorem FaultEffect.writesCsr {i : Instr} {code : FaultCode} {u : State} (he : FaultEffect s i code u)
    (h : csrValue u c ≠ csrValue s c) : WritesCsr i c := by
  cases he with
  | plain => exact absurd rfl h
  | binrun =>
    obtain rfl := eq_status_of_csrValue_setBinok_ne h
    exact .inr (.inl rfl)
  | gsrun =>
    obtain rfl := eq_status_of_csrValue_setGsok_ne h
    exact .inr (.inr (.inl rfl))
  | @gsrunOut vs _ x y =>
    by_cases hfail : csrValue (setFail (writeFirst s .mm vs) x y) c = csrValue (writeFirst s .mm vs) c
    · rw [← csrValue_writeFirst (s := s) .mm vs, ← hfail] at h
      obtain rfl := eq_status_of_csrValue_setGsok_ne h
      exact .inr (.inr (.inl rfl))
    · obtain rfl | rfl := eq_fail_of_csrValue_setFail_ne hfail <;> exact .inl rfl
  | @gsmapOut row col =>
    obtain rfl | rfl := eq_fail_of_csrValue_setFail_ne h <;> exact .inr ⟨row, col, rfl⟩
  | rsdecBad =>
    obtain rfl := eq_status_of_csrValue_setRsok_ne h
    exact .inr (.inr (.inr rfl))
  | rsdecUncorrectable =>
    obtain ⟨m, hm⟩ := storeSolution_frame s
    exact writesCsr_rsdec_of_csrValue_ne hm h

end Csrs

theorem Answer.writesCsr {i : Instr} {s t : State} {c : Csr} (ha : Answer i s t)
    (h : csrValue t c ≠ csrValue s c) : WritesCsr i c ∧ (s.err = true → i = .clrerr) := by
  cases ha with
  | success d he hl =>
    rw [csrValue_deliver] at h
    refine ⟨he.writesCsr h, fun hs => (hl hs).resolve_right ?_⟩
    rintro rfl
    exact h rfl
  | fault hs he =>
    refine ⟨?_, fun hs' => absurd (hs.symm.trans hs') Bool.false_ne_true⟩
    by_cases hc : ReadsLatch c
    · exact writesCsr_of_readsLatch (.inr ⟨_, he.mayRaise⟩) hc
    · rw [csrValue_faulted _ _ _ hc] at h
      exact he.writesCsr h
  | refused => exact absurd (csrValue_deliver s _ c) h

/-- Settles O57. -/
theorem eachCsrHasItsWriters : Obligations.EachCsrHasItsWriters := by
  unfold Obligations.EachCsrHasItsWriters
  intro i s t c ht h
  exact (answer_of_exec ht).writesCsr h

/-! ## The frame of a fault -/

theorem eq_rsdec_of_mayRaise_blockUncorrectable {i : Instr} (h : MayRaise i .blockUncorrectable) : i = .rsdec := by
  cases i <;> simp_all [MayRaise]

section FaultFrame
variable {i : Instr} {code : FaultCode} {s u : State} (he : FaultEffect s i code u)
include he

theorem FaultEffect.flags :
    (u.binok = if i = .binrun then false else s.binok) ∧ (u.gsok = if i = .gsrun then false else s.gsok) ∧
      (u.rsok = if i = .rsdec then false else s.rsok) := by
  cases he with
  | plain _ hi =>
    obtain ⟨hbin, hgs, hrs⟩ := hi
    simp [hbin, hgs, hrs]
  | rsdecUncorrectable =>
    obtain ⟨m, hm⟩ := storeSolution_frame s
    rw [hm]
    exact ⟨rfl, rfl, rfl⟩
  | _ => exact ⟨rfl, rfl, rfl⟩

theorem FaultEffect.gs :
    (code ≠ .sampleOutOfBounds → u.gs = s.gs) ∧ u.gs = { s.gs with failc := u.gs.failc, failr := u.gs.failr } := by
  cases he with
  | gsrunOut | gsmapOut => exact ⟨fun h => absurd rfl h, rfl⟩
  | rsdecUncorrectable =>
    obtain ⟨m, hm⟩ := storeSolution_frame s
    rw [hm]
    exact ⟨fun _ => rfl, rfl⟩
  | _ => exact ⟨fun _ => rfl, rfl⟩

theorem FaultEffect.rs_of_ne (h : code ≠ .blockUncorrectable) : u.rs = s.rs := by
  cases he with
  | rsdecUncorrectable => exact absurd rfl h
  | _ => rfl

theorem FaultEffect.rs_of_blockUncorrectable (h : code = .blockUncorrectable) :
    u.rs = { s.rs with l := u.rs.l, nerr := 0 } := by
  subst h
  cases he with
  | plain hm hi => exact absurd (eq_rsdec_of_mayRaise_blockUncorrectable hm) hi.2.2
  | binrun hm | gsrun hm => cases eq_rsdec_of_mayRaise_blockUncorrectable hm
  | rsdecUncorrectable =>
    obtain ⟨m, hm⟩ := storeSolution_frame s
    rw [hm]
    rfl

theorem FaultEffect.readCell_of_blockUncorrectable (h : code = .blockUncorrectable) {sp : Space}
    (hsp : sp = .cw ∨ sp = .px ∨ sp = .bm ∨ sp = .mm ∨ sp = .thr) (k : Nat) : readCell u sp k = readCell s sp k := by
  subst h
  by_contra hne
  obtain ⟨-, -, hcode⟩ | ⟨hother, -⟩ := he.changedCell hne
  · cases hcode
  · exact hother hsp

theorem FaultEffect.sameCellsBut_mm (h : code ≠ .blockUncorrectable) : SameCellsBut .mm s u := by
  intro sp hsp k
  by_contra hne
  obtain ⟨hmm, -⟩ | ⟨-, -, hcode⟩ := he.changedCell hne
  · exact hsp hmm
  · exact h hcode

theorem FaultEffect.readCell_mm (h : ¬ (i = .gsrun ∧ code = .sampleOutOfBounds)) (k : Nat) :
    readCell u .mm k = readCell s .mm k := by
  by_contra hne
  obtain ⟨-, hcode⟩ | ⟨hother, -⟩ := he.changedCell hne
  · exact h hcode
  · exact hother (by simp)

end FaultFrame

/-- Settles O59: the state is that of a fault, raised in a state that differs from the first as the lemmas above say. -/
theorem faultKeepsAllButLatchFlagAndResults : Obligations.FaultKeepsAllButLatchFlagAndResults := by
  unfold Obligations.FaultKeepsAllButLatchFlagAndResults
  intro i s t ht hs hterr
  cases answer_of_exec ht with
  | success d he => exact absurd ((he.err_of_clear hs).symm.trans hterr) Bool.false_ne_true
  | refused hs' => exact absurd (hs.symm.trans hs') Bool.false_ne_true
  | @fault u code _ he =>
    obtain ⟨hbinok, hgsok, hrsok⟩ := he.flags
    obtain ⟨hgs, hgs'⟩ := he.gs
    exact ⟨code, he.mayRaise, congrArg (fun v => faulted v code.bits (encode i)) he.frame, hbinok, hgsok, hrsok,
      hgs, hgs', he.rs_of_ne, fun h => ⟨he.rs_of_blockUncorrectable h,
        fun _ hsp => he.readCell_of_blockUncorrectable h hsp⟩,
      he.sameCellsBut_mm, he.readCell_mm⟩

end Sys2Proof.Machine
end

section
/-! PROOFS. The map of the CSRs and what they read (10_state.md R31 to R42), and the map of the spaces (R45). -/

-- One declaration at a time: the stacks of parallel elaboration can exceed the memory that the check allows.
set_option Elab.async false

namespace Sys2Proof.Machine

/-! ## The addresses of the CSRs -/

theorem addr_injective {c c' : Csr} (h : c.addr = c'.addr) : c = c' :=
  Option.some.inj ((ofAddr_addr c).symm.trans (h ▸ ofAddr_addr c'))

theorem toNat_addr_points (i : Fin 4) :
    (Csr.addr (.gsU i)).toNat = 0x30 + 2 * i.val ∧ (Csr.addr (.gsV i)).toNat = 0x31 + 2 * i.val ∧
      (Csr.addr (.gsX i)).toNat = 0x38 + 2 * i.val ∧ (Csr.addr (.gsY i)).toNat = 0x39 + 2 * i.val := by
  revert i
  decide

/-- Settles O30. -/
theorem csrAddressMap : Obligations.CsrAddressMap := by
  unfold Obligations.CsrAddressMap
  exact ⟨by decide, toNat_addr_points, fun a => (assignedCsr_iff a).symm, writable_iff_readWriteCsr,
    fun _ _ => addr_injective, rfl⟩

/-! ## What the CSRs read -/

theorem toNat_statusWord (s : State) :
    (statusWord s).toNat = s.err.toNat + 2 * s.binok.toNat + 4 * s.gsok.toNat + 8 * s.rsok.toNat := by
  unfold statusWord
  cases s.err <;> cases s.binok <;> cases s.gsok <;> cases s.rsok <;> rfl

theorem toNat_csrValue_errcmd (s : State) :
    (csrValue s .errcmdLo).toNat = s.errcmd.toNat % 65536 ∧ (csrValue s .errcmdHi).toNat = s.errcmd.toNat / 65536 := by
  have hlt := s.errcmd.isLt
  constructor <;>
    simp only [csrValue, BitVec.toNat_setWidth, BitVec.extractLsb'_toNat, Nat.shiftRight_eq_div_pow] <;> omega

/-- Settles O31: every register but the halves of ERRCMD and the status word is one field, zero-extended. -/
theorem statusAndCaptureRegistersRead : Obligations.StatusAndCaptureRegistersRead := by
  unfold Obligations.StatusAndCaptureRegistersRead
  intro s
  obtain ⟨hlo, hhi⟩ := toNat_csrValue_errcmd s
  refine ⟨(BitVec.toNat_setWidth_of_le (by decide)).trans (toNat_statusWord s), ?_, hlo, hhi, rfl, ?_⟩
  · exact BitVec.toNat_setWidth_of_le (by decide)
  simp only [csrValue, BitVec.toNat_setWidth_of_le, Nat.reduceLeDiff, and_self, implies_true]

/-! ## The spaces -/

theorem toNat_fitCell_of_oneBit {sp : Space} (h : sp.oneBit = true) (v : Byte) :
    (fitCell sp v).toNat = v.toNat % 2 := by
  rw [fitCell, if_pos h, BitVec.toNat_and]
  exact Nat.and_one_is_mod _

theorem readCell_writeCell_same (s : State) (sp : Space) (i : Nat) (v : Byte) :
    readCell (writeCell s sp i v) sp i = fitCell sp v :=
  (readCell_writeCell s sp sp i i v).trans (if_pos ⟨rfl, rfl⟩)

theorem fitCell_readCell (s : State) (sp : Space) (i : Nat) : fitCell sp (readCell s sp i) = readCell s sp i :=
  fitCell_fitCell sp _

/-- Settles O34. -/
theorem spacesOfTheMap : Obligations.SpacesOfTheMap := by
  unfold Obligations.SpacesOfTheMap
  refine ⟨rfl, rfl, ofSelector_eq_none_iff, ofSelector_selector, fun _ => rfl, hostWritable_iff, ?_, ?_⟩
  · intro s sp i v hsp
    rw [readCell_writeCell_same, fitCell, if_neg (mt (oneBit_iff sp).1 hsp)]
  · intro s sp i hsp
    have hbit := (oneBit_iff sp).2 hsp
    refine ⟨?_, fun v => ?_⟩
    · rw [← fitCell_readCell, toNat_fitCell_of_oneBit hbit]
      omega
    · rw [readCell_writeCell_same, toNat_fitCell_of_oneBit hbit]

end Sys2Proof.Machine
end
